-- ==== Sys2Proof/Word.lean ====
section
/-! DEFINITION. The word types of the part: the byte of a frame or of host memory, and the 32-bit word of the exchange
region and of the register window ("A word is 32 bits", spec/00_scope.md, Conventions). -/

namespace Sys2Proof

/-- One byte of a station frame or of host memory. -/
abbrev Byte := BitVec 8

/-- A 32-bit word (spec/00_scope.md, "Words and bytes"). -/
abbrev Word := BitVec 32

/-- A count as a word. -/
abbrev Word.ofCount (n : Nat) : Word := BitVec.ofNat 32 n

/-- A signed value as a word, two's complement (R201). -/
abbrev Word.ofSigned (n : Int) : Word := BitVec.ofInt 32 n

/-- R201: "none" or "absent" in a word. -/
abbrev Word.absent : Word := 0xFFFFFFFF

/-- R201: "none" in a byte. -/
abbrev Byte.absent : Byte := 0xFF

end Sys2Proof
end

