-- ==== Sys2Proof/Config.lean ====
section
/-! DEFINITION. The capacities and the fixed times of the part (spec/00_scope.md, "Capacities", and the rules named at each
constant). One opaque constant gives the free values: the result words that the spec does not state (log entry 18). -/

namespace Sys2Proof.Config

/-- R8: check slots. -/
abbrev checkSlots : Nat := 1024
/-- R12: line records, whole part. -/
abbrev lineRecords : Nat := 8192
/-- R12: lines per check. -/
abbrev linesPerCheck : Nat := 40
/-- R48: tenders per check. -/
abbrev tendersPerCheck : Nat := 16
/-- R14: checks held per till. -/
abbrev heldPerTill : Nat := 8
/-- R6: tills are numbered 1..96. -/
abbrev tills : Nat := 96
/-- R66: items. -/
abbrev items : Nat := 2048
/-- R78: warmer lots per batch slot. -/
abbrev lotsPerSlot : Nat := 4
/-- R97: ticket records. -/
abbrev ticketRecords : Nat := 1536
/-- R96: entries per ticket. -/
abbrev entriesPerTicket : Nat := 12
/-- R117: bumped tickets kept per station. -/
abbrev bumpedPerStation : Nat := 6
/-- R144: outbox frames per link. -/
abbrev outboxFrames : Nat := 16
/-- R183: posted chains pending. -/
abbrev chains : Nat := 8
/-- R186: slips per chain. -/
abbrev slipsPerChain : Nat := 256
/-- R192: notice buffer entries. -/
abbrev noticeEntries : Nat := 128
/-- R196: entries per notice page. -/
abbrev pageEntries : Nat := 32
/-- R176: bytes of one page of the exchange region. -/
abbrev pageBytes : Nat := 4096
/-- R181: bytes of one slip. -/
abbrev slipBytes : Nat := 64
/-- R145: the status limit, in ms. -/
abbrev statusLimit : Nat := 40
/-- R153: the probe timer, in ms. -/
abbrev probeTime : Nat := 2000
/-- R140: the longest gap between two bytes of one frame, in ms. -/
abbrev byteGap : Nat := 5
/-- R146: BUSY answers in a row that make a link DARK. -/
abbrev busyLimit : Nat := 10
/-- R84: the shortest effective interval, in s. -/
abbrev shortestInterval : Nat := 30
/-- R197: the fill retry hold, in ms. -/
abbrev fillRetryHold : Nat := 1000
/-- R177: the part code and the revision number that ID reads as. -/
abbrev idWord : Word := 0x24600001
/-- R159: the period in force after power-on reset, in s. -/
abbrev powerOnPeriod : Nat := 10
/-- R160: the largest period count. -/
abbrev countMax : Nat := 65535
/-- R159: the largest demand figure, 16 times the largest period count. -/
abbrev figureMax : Nat := 1048560

/-- The free value of a number: a result word to which the spec gives no value (log entry 18). Nothing constrains it;
`State.freeValues` counts the ones used (log entry 17). -/
opaque freeWord : Nat → Word

end Sys2Proof.Config
end

