-- ==== Sys2Proof/Syntax.lean ====
section
/-! DEFINITION. The commands of the part: one constructor of `Instr` for each row of spec/opcode_table.json. A request
command carries the slip header's till and authority (R181) and the operand words of the slip body, one to a word in the order
its rule names them (R201), just as the host wrote them: the owning block tests their ranges. A register write carries the
value written. A command that is an event inside the part (a hand-over from one block to another, a timer that runs out, a
frame from a head) carries what the rule of that event says it names. -/

namespace Sys2Proof

/-! ### Names -/

/-- Stands are numbered 0..15. -/
abbrev StandId := Fin 16
/-- Stations are numbered 0..23. -/
abbrev StationId := Fin 24
/-- Batch slots are numbered 0..31. -/
abbrev SlotId := Fin 32
/-- Items are numbered 0..2,047. -/
abbrev ItemId := Fin 2048

/-- R8: a check handle names a slot, 0..1,023, and a generation, 0..63. -/
structure Handle where
  slot : BitVec 10
  gen : BitVec 6
  deriving DecidableEq, Repr

/-- R97: a ticket tag names an index and a generation, 0..15. An index above 1,535 names no ticket record. -/
structure Tag where
  index : BitVec 11
  gen : BitVec 4
  deriving DecidableEq, Repr

/-- R12: a line reference is a check handle with a line index. -/
structure LineRef where
  check : Handle
  line : Nat
  deriving DecidableEq, Repr

/-- The authority a slip carries. -/
inductive Authority where
  | staff
  | supervisor
  deriving DecidableEq, Repr

/-- R7: the till and the authority that a slip's header names. Till 0 is the back office. -/
structure Requester where
  till : Byte
  authority : Authority
  deriving DecidableEq, Repr

/-- The class of a ticket and the priority of a check (R10, R98). -/
inductive TicketClass where
  | normal
  | express
  | suite
  deriving DecidableEq, Repr

/-- A stand's pace level (R159). -/
inductive Level where
  | normal
  | busy
  | rush
  deriving DecidableEq, Repr

/-- The fire state of a line (R12). -/
inductive FireState where
  | held
  | timing
  | fired
  | served
  | unsent
  deriving DecidableEq, Repr

/-- What goes to the router of a voided line, as it stood when the void was taken: its fire state (R106), and, for a router that may take
the void after the line's record has been freed, the stand of its check, its ticket reference and its draw flag (DESIGN CHOICE, log
entry 39). -/
structure VoidedLine where
  was : FireState
  stand : StandId
  ticket : Option Tag
  drawn : Bool
  deriving DecidableEq, Repr

/-- The state of a station's link (R143), in the order R143 and R206 list them. -/
inductive LinkState where
  | offline
  | starting
  | live
  | dark
  | rejoining
  deriving DecidableEq, Repr

/-- R93: the causes of a firing that names lines in state HELD. (The fourth cause, a delay's expiry, is a command of its own.) -/
inductive FireCause where
  | entry
  | close
  | fire
  deriving DecidableEq, Repr

/-- R125, R174: what Demand Watch tells the router of a stand: its level, and the focus minimum and the late limit in force then, in
seconds. -/
structure PaceInForce where
  level : Level
  focus : Nat
  late : Nat
  deriving DecidableEq, Repr

/-- R142: the codes of a STATUS frame. -/
inductive StatusCode where
  | ack
  | nakCheck
  | busy
  | stale
  | badFrame
  deriving DecidableEq, Repr

/-- One entry of a SHOW frame (R141). -/
structure ShowEntry where
  item : Nat
  quantity : Nat
  void : Bool
  deriving DecidableEq, Repr

/-- The frames the part sends (R141). -/
inductive Frame where
  /-- A ticket put in a slot of the display. -/
  | showTicket (slot : Nat) (tag : Tag) (display : Nat) (cls : TicketClass) (late : Bool) (entries : List ShowEntry)
  /-- A slot emptied. -/
  | clearSlot (slot : Nat)
  /-- The display emptied. -/
  | clearAll
  /-- The marks of a shown ticket restated: the late mark and the void mark of each entry. -/
  | mark (slot : Nat) (tag : Tag) (late : Bool) (voids : List Bool)
  | probe
  | status (code : StatusCode)
  deriving DecidableEq, Repr

/-- R192, R206: the notice kinds, in the order of their codes. -/
inductive NoticeKind where
  | ticketState
  | orderReady
  | orderRecalled
  | checkTaken
  | unsent
  | itemOut
  | itemBack
  | stockLow
  | stockShort
  | waste
  | batchBehind
  | batchSkipped
  | paceChange
  | stationState
  | chainDone
  | chainAbandoned
  deriving DecidableEq, Repr

/-- R192: a notice as a block raises it: its kind, its subject word and its value words, packed as R206 gives them. The
day-clock time is given when EXU takes it. -/
structure Notice where
  kind : NoticeKind
  subject : Word
  values : List Word
  deriving DecidableEq, Repr

/-- R187, R197: the access to host memory that failed, and how much of a write reached memory before it failed (an input from
outside the part: the rules leave it to the bus). -/
inductive BusAccess where
  /-- The read of a slip. -/
  | slipRead
  /-- The write of TAKEN; `reached` says whether it reached memory. -/
  | takenWrite (reached : Bool)
  /-- A buffer write of READ_CHECK, READ_STATION or EXPORT_CLOSED; `reached` is how many of its bytes reached memory. -/
  | bufferWrite (reached : Nat)
  /-- The write of the body or of the outcome word; `reached` is how many of its bytes reached memory. -/
  | outcomeWrite (reached : Nat)
  /-- The next fill of the notice page; `reached` is how many of its bytes reach memory. -/
  | pageFill (reached : Nat)
  deriving DecidableEq, Repr

/-! ### The commands -/

/-- The commands of the part, one constructor for each row of spec/opcode_table.json, in the table's order. -/
inductive Instr where
  /-- POWER_ON_RESET (R191). -/
  | powerOnReset
  /-- SOFT_RESET (R190): a CONTROL write with the strobe set; `run` is the RUN bit of the same write. -/
  | softReset (run : Bool)
  /-- RUN (R178): a CONTROL write with the strobe clear. -/
  | run (value : Bool)
  /-- EXCHANGE_BASE_LO (R179). -/
  | exchangeBaseLo (value : Word)
  /-- EXCHANGE_BASE_HI (R179). -/
  | exchangeBaseHi (value : Word)
  /-- EXCHANGE_SIZE (R179). -/
  | exchangeSize (value : Word)
  /-- POST (R183). -/
  | post (offset : Word)
  /-- NOTICE (R198). -/
  | notice (value : Word)
  /-- FAULT (R189). -/
  | fault (value : Word)
  /-- REGISTER_WRITE_IGNORED (R177): a write of `width` bytes at `offset` of the window. -/
  | registerWriteIgnored (offset width : Nat) (value : Word)
  /-- WALKER_TAKE_SLIP (R185): `stores` is what the host has stored in its own memory before the walker's read. -/
  | walkerTakeSlip (stores : List Host.Cell)
  /-- OUTCOME_WRITE (R182). -/
  | outcomeWrite
  /-- BUS_ERROR (R187). -/
  | busError (access : BusAccess)
  /-- NOP (R185). -/
  | nop (r : Requester)
  /-- OPEN_CHECK (R15). -/
  | openCheck (r : Requester) (priority : Word)
  /-- PARK (R16). -/
  | park (r : Requester) (handle : Word)
  /-- PICK_UP (R17). -/
  | pickUp (r : Requester) (handle : Word)
  /-- FORCE_PICK_UP (R18). -/
  | forcePickUp (r : Requester) (handle : Word)
  /-- ADD_LINE (R20). -/
  | addLine (r : Requester) (handle item quantity fireMode modCount d0 d1 d2 d3 : Word)
  /-- VOID_LINE (R22). -/
  | voidLine (r : Requester) (handle line : Word)
  /-- COMP_LINE (R24). -/
  | compLine (r : Requester) (handle line : Word)
  /-- SET_SHARE (R25). -/
  | setShare (r : Requester) (handle line mask : Word)
  /-- READ_CHECK (R26). -/
  | readCheck (r : Requester) (handle offset length : Word)
  /-- REOPEN (R28). -/
  | reopen (r : Requester) (handle : Word)
  /-- EXPORT_CLOSED (R29). -/
  | exportClosed (r : Requester) (offset length : Word)
  /-- SET_STAND (R3, R201): the eight route entries lie in two words. -/
  | setStand (r : Requester) (stand policy rate0 rate1 rate2 rate3 levy increment routesLo routesHi : Word)
  /-- SET_TILL (R6). -/
  | setTill (r : Requester) (till stand closed : Word)
  /-- STAND_STATE (R4). -/
  | standState (r : Requester) (stand target : Word)
  /-- CUT_OFF (R5). -/
  | cutOff (r : Requester) (stand : Word)
  /-- CLOSE_DAY (R30). -/
  | closeDay (r : Requester)
  /-- SET_SPLIT (R33). -/
  | setSplit (r : Requester) (handle payers w0 w1 w2 w3 w4 w5 w6 w7 : Word)
  /-- QUOTE (R44). -/
  | quote (r : Requester) (handle : Word)
  /-- TENDER (R51). -/
  | tender (r : Requester) (handle payer kind amount reference : Word)
  /-- VOID_TENDER (R57). -/
  | voidTender (r : Requester) (handle index : Word)
  /-- SETTLE (R59). -/
  | settle (r : Requester) (handle : Word)
  /-- SET_ITEM (R67). -/
  | setItem (r : Requester) (item isDefined price taxClass prepRoute restricted tracked lowMark slot : Word)
  /-- SET_BATCH (R76). -/
  | setBatch (r : Requester) (slot item mode home interval baseSize capacity life lowMark leadDelay : Word)
  /-- RECEIVE_STOCK (R73). -/
  | receiveStock (r : Requester) (item quantity : Word)
  /-- COUNT_STOCK (R74). -/
  | countStock (r : Requester) (item count : Word)
  /-- RESTART_BATCH (R90). -/
  | restartBatch (r : Requester) (slot issueNow : Word)
  /-- READ_ITEM (R69). -/
  | readItem (r : Requester) (item : Word)
  /-- FIRE (R102). -/
  | fire (r : Requester) (handle group : Word)
  /-- PRIORITIZE (R132). -/
  | prioritize (r : Requester) (tag cls : Word)
  /-- RECALL_TICKET (R131). -/
  | recallTicket (r : Requester) (tag : Word)
  /-- READ_STATION (R137). -/
  | readStation (r : Requester) (station offset length : Word)
  /-- SET_STATION (R157). -/
  | setStation (r : Requester) (station active fallback hint : Word)
  /-- SET_PACE (R169): the section code and the operands after it. -/
  | setPace (r : Requester) (sect w1 w2 w3 w4 w5 w6 w7 w8 w9 : Word)
  /-- READ_DEMAND (R173). -/
  | readDemand (r : Requester) (kind number : Word)
  /-- SET_NOTICES (R199). -/
  | setNotices (r : Requester) (mode interval mask : Word)
  /-- ACK_RESTART (R198). -/
  | ackRestart (r : Requester)
  /-- FIRING (R94): a check, a list of its lines in list order, and the cause. -/
  | firing (check : Handle) (lines : List Nat) (cause : FireCause)
  /-- DELAY_EXPIRY (R101). -/
  | delayExpiry (ref : LineRef)
  /-- CHECK_CLOSE_TOLD (R62). -/
  | checkCloseTold (check : Handle)
  /-- KITCHEN_VOID (R106): the line, its item and quantity, and how it stood when the void was taken. -/
  | kitchenVoid (ref : LineRef) (item : ItemId) (quantity : Nat) (was : VoidedLine)
  /-- SLOT_FREED (R114). -/
  | slotFreed (check : Handle)
  /-- BATCH_TICKET_ASK (R100). -/
  | batchTicketAsk (slot : SlotId) (quantity : Nat)
  /-- BUMP (R126). -/
  | bump (station : StationId) (tag : Tag)
  /-- RECALL (R130): the tag is passed but not read. -/
  | recall (station : StationId) (tag : Tag)
  /-- FOCUS_TIMER_EXPIRY (R121). -/
  | focusTimerExpiry (tag : Tag)
  /-- LATE_TIMER_EXPIRY (R124). -/
  | lateTimerExpiry (tag : Tag)
  /-- PACE_CHANGE_TKR (R125, R174): the stand, and what is in force there at the announcement. -/
  | paceChangeTkr (stand : StandId) (pace : PaceInForce)
  /-- LINK_STATE_TKR (R133, R156): the station, its new state and, after a rejoin began, its slot count. -/
  | linkStateTkr (station : StationId) (state : LinkState) (count : Option Nat)
  /-- FALLBACK_CHANGE_TKR (R157). -/
  | fallbackChangeTkr (station : StationId)
  /-- SHOWN_SET_ASK (R148): `ask` is the number of the ask, which its answer carries back. -/
  | shownSetAsk (station : StationId) (ask : Nat)
  /-- RESERVE (R72). -/
  | reserve (item : ItemId) (quantity : Nat)
  /-- RELEASE (R72). -/
  | release (item : ItemId) (quantity : Nat)
  /-- COMMIT (R72). -/
  | commit (item : ItemId) (quantity : Nat)
  /-- UNCOMMIT (R72): the ask concerns a line whose stock mark is set (R13). -/
  | uncommit (ref : LineRef) (item : ItemId) (quantity : Nat)
  /-- WARMER_DRAW (R79). -/
  | warmerDraw (slot : SlotId) (quantity : Nat)
  /-- BATCH_BUMP (R80). -/
  | batchBump (slot : SlotId) (quantity : Nat)
  /-- BATCH_CANCEL (R87). -/
  | batchCancel (slot : SlotId)
  /-- VOID_RETURN (R81): the line's item, the slot paired with it when the void is taken, and the quantity. -/
  | voidReturn (item : ItemId) (slot : Option SlotId) (quantity : Nat)
  /-- LOT_EXPIRY (R82). -/
  | lotExpiry (slot : SlotId)
  /-- BATCH_TIMER_EXPIRY (R86). -/
  | batchTimerExpiry (slot : SlotId)
  /-- LEAD_TIMER_EXPIRY (R88). -/
  | leadTimerExpiry (slot : SlotId)
  /-- PACE_CHANGE_ISU (R85). -/
  | paceChangeIsu (stand : StandId) (level : Level)
  /-- GATE_TEST (R89): `source` says which block hands it over. -/
  | gateTest
  /-- ISU_DAY_CLOSE (R92). -/
  | isuDayClose
  /-- TKR_DAY_CLOSE (R115). -/
  | tkrDayClose
  /-- DMW_DAY_CLOSE (R175). -/
  | dmwDayClose
  /-- COUNT_ADD (R160). -/
  | countAdd (stand : StandId) (slot : Option SlotId) (quantity : Nat)
  /-- COUNT_TAKE (R160). -/
  | countTake (stand : StandId) (slot : Option SlotId) (quantity : Nat)
  /-- PAIRING_CHANGE (R164). -/
  | pairingChange (slot : SlotId)
  /-- SAMPLE_TIMER_EXPIRY (R161). -/
  | sampleTimerExpiry
  /-- KEY_FRAME (R149): a complete KEY frame, its body and whether its check byte was right. -/
  | keyFrame (station : StationId) (body : List Byte) (checkOk : Bool)
  /-- KEY_ANSWER (R150). -/
  | keyAnswer (station : StationId) (code : StatusCode)
  /-- HELLO (R154): a complete HELLO frame. -/
  | hello (station : StationId) (body : List Byte) (checkOk : Bool)
  /-- STATUS (R146): a complete STATUS frame. -/
  | status (station : StationId) (body : List Byte) (checkOk : Bool)
  /-- FRAME_REJECTED (R149): a complete frame of a kind the part does not take, or with a wrong check byte. -/
  | frameRejected (station : StationId) (kind : Byte) (checkOk : Bool)
  /-- RECEIVE_GAP_TIMEOUT (R140). -/
  | receiveGapTimeout (station : StationId)
  /-- FRAME_HANDOVER (R144). -/
  | frameHandover (station : StationId) (frame : Frame)
  /-- FRAME_SENT (R145). -/
  | frameSent (station : StationId)
  /-- STATUS_TIMER_EXPIRY (R146). -/
  | statusTimerExpiry (station : StationId)
  /-- BUSY_WAIT_EXPIRY (R146). -/
  | busyWaitExpiry (station : StationId)
  /-- PROBE_TIMER_EXPIRY (R153). -/
  | probeTimerExpiry (station : StationId)
  /-- REFRESH_REQUEST (R148). -/
  | refreshRequest (station : StationId)
  /-- REFRESH_ANSWER (R148): the number of the ask answered, and a SHOW frame for each shown ticket, in slot order. -/
  | refreshAnswer (station : StationId) (ask : Nat) (shows : List Frame)
  /-- NOTICE_RAISE (R192). -/
  | noticeRaise (n : Notice)
  /-- REPORT_TIMER_EXPIRY (R195). -/
  | reportTimerExpiry
  /-- FILL_RETRY_HOLD_END (R197). -/
  | fillRetryHoldEnd
  /-- DELAY_LIST_JOIN (R101): the line and its due time, a day-clock value. -/
  | delayListJoin (ref : LineRef) (due : Word)
  /-- BYTE_ARRIVAL (R140). -/
  | byteArrival (station : StationId) (byte : Byte)
  deriving DecidableEq, Repr

end Sys2Proof
end

