-- ==== Sys2Proof/Machine/State.lean ====
section
/-! DEFINITION. The state of the part: everything the spec gives each of its seven blocks (spec/00_scope.md, "Block overview"),
the exchange region in host memory as the part sees it, the hand-overs between blocks that have been made and not yet taken
(R1), and the queue of commands that are waiting. Plain data throughout.

A table of numbered records is a list of (number, record) pairs that lists only the records that differ from their value
after power-on reset, so that the state after power-on reset is small. INVENTORY.md lists every field with its rule. -/

namespace Sys2Proof.Machine

/-- A table of numbered records: numbers strictly rising, and no record listed that is the table's default. -/
abbrev Table (α : Type) := List (Nat × α)

/-! ### Check Store: stands and tills -/

/-- R2: the state of a stand. -/
inductive StandState where
  | opened
  | lastOrders
  | closed
  deriving DecidableEq, Repr

/-- R2: a stand's fire policy. -/
inductive FirePolicy where
  | onEntry
  | onSettle
  deriving DecidableEq, Repr

/-- R2: a stand record, with its values after power-on reset. (Its pace settings and level are Demand Watch's: `Pace`.) -/
structure Stand where
  configured : Bool := false
  state : StandState := .closed
  policy : FirePolicy := .onEntry
  /-- One for each tax class 0..3, in basis points. -/
  rates : List Nat := [0, 0, 0, 0]
  levy : Nat := 0
  increment : Nat := 1
  /-- One for each prep route 0..7: a station, or none. -/
  routes : List (Option StationId) := [none, none, none, none, none, none, none, none]
  cutOff : Bool := false
  nextDisplay : Nat := 1
  deriving DecidableEq, Repr

/-- R6: a till record, with its values after power-on reset. -/
structure Till where
  stand : Option StandId := none
  isOpen : Bool := false
  /-- The checks the till holds, in the order the till took them. -/
  held : List Handle := []
  deriving DecidableEq, Repr

/-! ### Check Store: checks -/

/-- R10, R11: the state of a check in use. -/
inductive CheckState where
  | opened
  | paying
  | closed
  | exported
  deriving DecidableEq, Repr

/-- R12: a line's share mask. Bit p of a set is payer p. -/
inductive Share where
  | all
  | payers (set : BitVec 8)
  | unassigned
  deriving DecidableEq, Repr

/-- R12: a line's fire mode. -/
inductive FireMode where
  | immediate
  | delayed (seconds : Nat)
  | onCall (group : Nat)
  deriving DecidableEq, Repr

/-- R12: a line record. -/
structure Line where
  item : ItemId
  quantity : Nat
  price : Nat
  deltas : List Int
  taxClass : Fin 4
  restricted : Bool
  stockMark : Bool
  share : Share := .all
  void : Bool := false
  comp : Bool := false
  mode : FireMode
  fire : FireState := .held
  ticket : Option Tag := none
  drawn : Bool := false
  deriving DecidableEq, Repr

/-- R34: a payer row of a due table. -/
structure PayerRow where
  net : Nat := 0
  /-- One for each tax class 0..3. -/
  taxes : List Nat := [0, 0, 0, 0]
  levy : Nat := 0
  due : Nat := 0
  applied : Nat := 0
  remaining : Nat := 0
  /-- PAID, or OWING. -/
  paid : Bool := false
  deriving DecidableEq, Repr

/-- R34: a due table: the payer rows and the check figures. -/
structure DueTable where
  rows : List PayerRow
  net : Nat
  /-- One for each tax class 0..3. -/
  classNets : List Nat
  classTaxes : List Nat
  levy : Nat
  total : Nat
  /-- COMPLETE, or INCOMPLETE. -/
  complete : Bool
  deriving DecidableEq, Repr

/-- R48: the kinds of tender. -/
inductive TenderKind where
  | cash
  | card
  | voucher
  deriving DecidableEq, Repr

/-- R48: a tender record. -/
structure Tender where
  payer : Nat
  kind : TenderKind
  offered : Nat
  applied : Nat
  change : Nat
  adjustment : Int
  forfeit : Nat
  reference : Word
  reversed : Bool := false
  deriving DecidableEq, Repr

/-- R10: a check record. Its handle is the number and generation of the slot that holds it. -/
structure Check where
  stand : StandId
  state : CheckState := .opened
  /-- The till that holds it, or none: parked. -/
  holder : Option Nat
  priority : TicketClass
  rates : List Nat
  levy : Nat
  increment : Nat
  /-- R32: the weight of each payer 0..P−1; P is the list's length. -/
  weights : List Nat
  lines : List Line
  due : DueTable
  tenders : List Tender
  ticketsOut : Nat
  ticketsFired : Nat
  orderReady : Bool
  closeTime : Option Word
  deriving DecidableEq, Repr

/-- R8: a check slot: its generation, and the check it holds while in use. -/
structure CheckSlot where
  gen : BitVec 6 := 0
  check : Option Check := none
  deriving DecidableEq, Repr

/-- What the Check Store and the Split Engine own. The line pool (R12) is the lines of the checks in use. -/
structure Cks where
  /-- By stand number. -/
  stands : Table Stand := []
  /-- By till number. -/
  tills : Table Till := []
  /-- By slot number. -/
  slots : Table CheckSlot := []
  /-- R27: the CLOSED checks, in the order they closed. -/
  closedList : List Handle := []
  /-- R27: the EXPORTED checks, in the order they were written. -/
  exportedList : List Handle := []
  /-- R39: the Split Engine's cursor between computations. -/
  speCursor : Nat := 0
  deriving DecidableEq, Repr

/-! ### Item and Stock Unit -/

/-- R66: an item record, with its values after power-on reset. -/
structure Item where
  isDefined : Bool := false
  price : Nat := 0
  taxClass : Fin 4 := 0
  prepRoute : Fin 8 := 0
  restricted : Bool := false
  tracked : Bool := false
  onHand : Nat := 0
  reserved : Nat := 0
  lowMark : Nat := 0
  slot : Option SlotId := none
  deriving DecidableEq, Repr

/-- R75: the mode of a batch slot. -/
inductive BatchMode where
  | off
  | paced
  | onDemand
  deriving DecidableEq, Repr

/-- R75: a batch or lead timer: IDLE; RUNNING, with the moment it runs out on the part's millisecond count; or HELD, with the
milliseconds it has left. -/
inductive Countdown where
  | idle
  | running (due : Nat)
  | held (left : Nat)
  deriving DecidableEq, Repr

/-- R78: a lot of a warmer: its count, and its expiry time, a day-clock value. -/
structure Lot where
  count : Nat
  expiry : Word
  deriving DecidableEq, Repr

/-- R75: a batch slot, with its values after power-on reset. -/
structure Batch where
  item : Option ItemId := none
  mode : BatchMode := .off
  home : StandId := 0
  interval : Nat := 300
  baseSize : Nat := 1
  capacity : Nat := 1
  life : Nat := 900
  lowMark : Nat := 0
  leadDelay : Nat := 0
  /-- Oldest first. -/
  lots : List Lot := []
  batchTimer : Countdown := .idle
  /-- The cycle interval, in s. -/
  cycle : Nat := 0
  /-- The pending effective interval, in s. -/
  pendingInterval : Option Nat := none
  leadTimer : Countdown := .idle
  outstanding : Option Tag := none
  deriving DecidableEq, Repr

/-- What the Item and Stock Unit owns. -/
structure Isu where
  /-- By item number. -/
  items : Table Item := []
  /-- By batch slot number. -/
  batches : Table Batch := []
  /-- R75: by stand number, the level last announced by Demand Watch. -/
  levels : Table Level := []
  deriving DecidableEq, Repr

/-! ### Ticket Router -/

/-- R98: what kind of ticket it is, with what only that kind holds. -/
inductive TicketKind where
  | order (stand : StandId) (check : Handle) (display : Nat)
  | batch (slot : SlotId)
  deriving DecidableEq, Repr

/-- R98: the state of a ticket. -/
inductive TicketState where
  | waiting
  | shown
  | bumped
  deriving DecidableEq, Repr

/-- R98: what an entry names: a line of a check, or the batch slot of a batch ticket. -/
inductive EntryRef where
  | line (ref : LineRef)
  | slot (slot : SlotId)
  deriving DecidableEq, Repr

/-- R96, R98: an entry of a ticket. -/
structure Entry where
  ref : EntryRef
  item : ItemId
  quantity : Nat
  void : Bool := false
  deriving DecidableEq, Repr

/-- R98: a ticket. Its tag is the number and generation of the record that holds it. -/
structure Ticket where
  kind : TicketKind
  station : StationId
  cls : TicketClass
  fireTime : Word
  /-- The model's own (log entry 57): the moment of the fire time on the part's millisecond count, by which tickets are ordered from
  oldest to newest (R118) whatever the day clock does meanwhile. -/
  firedAt : Nat
  state : TicketState := .waiting
  late : Bool := false
  /-- The display slot, while SHOWN. -/
  slot : Option Nat := none
  /-- The shown time, while SHOWN. -/
  shownTime : Option Word := none
  entries : List Entry
  continuedFrom : Option Tag := none
  /-- R121: when the focus timer runs out, on the part's millisecond count. None on a shown ticket: it has run out. -/
  focusDue : Option Nat := none
  /-- R124: when the late timer runs out, on the part's millisecond count. None: it is stopped. -/
  lateDue : Option Nat := none
  deriving DecidableEq, Repr

/-- R97: a ticket record: its generation, and the ticket it holds while in use. -/
structure TicketRec where
  gen : BitVec 4 := 0
  ticket : Option Ticket := none
  deriving DecidableEq, Repr

/-- R117: the three collections of a station, as indexes of ticket records. -/
structure Queues where
  /-- In key order (R118). -/
  waiting : List Nat := []
  /-- In slot order. -/
  shown : List Nat := []
  /-- Most recently bumped first. -/
  bumped : List Nat := []
  deriving DecidableEq, Repr

/-- R101: an entry of the delay list: a line and its due time, a day-clock value. -/
structure Delay where
  ref : LineRef
  due : Word
  deriving DecidableEq, Repr

/-- What the Ticket Router owns. -/
structure Tkr where
  /-- By index. -/
  tickets : Table TicketRec := []
  /-- By station number. -/
  queues : Table Queues := []
  /-- R101: earliest due first. -/
  delays : List Delay := []
  /-- R103: in the order the lines became UNSENT. -/
  unsent : List LineRef := []
  deriving DecidableEq, Repr

/-! ### Station Link Controller -/

/-- R144, R143: a frame of an outbox; `rejoin` is the rejoin mark. -/
structure OutFrame where
  frame : Frame
  rejoin : Bool := false
  deriving DecidableEq, Repr

/-- R145: the frame in flight. `sent` says that its last byte has left. -/
structure Flight where
  frame : Frame
  isProbe : Bool
  rejoin : Bool
  sent : Bool
  deriving DecidableEq, Repr

/-- R140: a receiver: hunting, or assembling with the bytes after the lead byte so far and the moment the last byte arrived. -/
inductive Receiver where
  | hunting
  | assembling (bytes : List Byte) (last : Nat)
  deriving DecidableEq, Repr

/-- R143: a link context, with its values after power-on reset. -/
structure Link where
  active : Bool := false
  fallback : Option StationId := none
  hint : Nat := 4
  reported : Option Nat := none
  /-- The slot count in force. -/
  count : Nat := 4
  state : LinkState := .offline
  outbox : List OutFrame := []
  inFlight : Option Flight := none
  failures : Nat := 0
  busies : Nat := 0
  /-- The timers, on the part's millisecond count; none: idle. -/
  statusDue : Option Nat := none
  busyDue : Option Nat := none
  probeDue : Option Nat := none
  refreshAwaited : Bool := false
  receiver : Receiver := .hunting
  /-- R149: the answers not yet sent, in the order their frames arrived; none: a key that waits for TKR's decision. -/
  answers : List (Option StatusCode) := []
  /-- The model's own: the number of the last ask for the shown set, by which a superseded answer is known (R148). -/
  askNo : Nat := 0
  /-- The model's own: what the part has put on the line, a frame's bytes each, oldest first. -/
  wire : List (List Byte) := []
  deriving DecidableEq, Repr

/-- What the Station Link Controller owns. -/
structure Slc where
  /-- By station number. -/
  links : Table Link := []
  deriving DecidableEq, Repr

/-! ### Demand Watch -/

/-- R159: the period count and the two figures of a filter, in sixteenths of a unit per period. -/
structure Filter where
  count : Nat := 0
  fast : Nat := 0
  slow : Nat := 0
  deriving DecidableEq, Repr

/-- R159, R165: a stand's pace settings, its filter and its level record, with their values after power-on reset. -/
structure Pace where
  busyOn : Nat := 320
  busyOff : Nat := 160
  rushOn : Nat := 960
  rushOff : Nat := 640
  dwell : Nat := 60
  haltLimit : Nat := 30
  kF : Nat := 2
  kL : Nat := 6
  focusNormal : Nat := 30
  focusBusy : Nat := 20
  focusRush : Nat := 12
  lateNormal : Nat := 300
  lateBusy : Nat := 420
  lateRush : Nat := 600
  filter : Filter := {}
  level : Level := .normal
  opening : Level := .normal
  quiet : Nat := 0
  halt : Nat := 0
  forced : Bool := false
  deriving DecidableEq, Repr

/-- What Demand Watch owns. -/
structure Dmw where
  /-- The period in force, in s. -/
  period : Nat := 10
  pendingPeriod : Option Nat := none
  /-- When the sample timer runs out, on the part's millisecond count. -/
  sampleDue : Nat := 10000
  /-- By stand number. -/
  paces : Table Pace := []
  /-- By batch slot number. -/
  filters : Table Filter := []
  deriving DecidableEq, Repr

/-! ### Exchange Unit -/

/-- R205: the reason codes, in the order of their codes from 1. -/
inductive Reason where
  | badRequest | range | noCheck | held | notHeld | wrongStand | authority | noSlot | lineFull | poolFull | noItem
  | outOfStock | cutOff | standClosed | splitFrozen | unassigned | badMask | overTender | payerPaid | checkClosed | notClosed
  | exported | tillFull | tillBusy | notSettled | noTicket | openChecks | notExported | standBusy | itemBusy | notPaid
  | tenderVoid | noRoom
  deriving DecidableEq, Repr

/-- R182: what an owner answers: DONE with the result words, or REFUSED with a reason and, for HELD, the word that the refusal
writes into body word 0 (R17). -/
inductive Answer where
  | done (results : List Word)
  | refused (reason : Reason) (word0 : Option Word)
  deriving DecidableEq, Repr

/-- R188: the walker's place in the chain at the head of the list. -/
structure Place where
  /-- The offset of the next slip. -/
  next : Word
  slips : Nat
  refused : Nat
  /-- The host tag of the head slip. -/
  headTag : Word
  deriving DecidableEq, Repr

/-- R184: the slip in work: its offset and the link the walker read in it. -/
structure Work where
  offset : Word
  link : Word
  deriving DecidableEq, Repr

/-- What the Exchange Unit owns at the way in (R191). -/
structure Exu where
  baseLo : Word := 0
  baseHi : Word := 0
  /-- The size register, in pages. -/
  size : Word := 0
  run : Bool := false
  /-- R183: the head offsets of the chains posted, oldest first. -/
  chains : List Word := []
  place : Option Place := none
  inWork : Option Work := none
  /-- R185: the owner's answer, until the walker has written it. -/
  answer : Option Answer := none
  /-- R189: bit n is the fault bit of that number (R203). -/
  fault : BitVec 7 := 0
  dayClock : Word := 0
  deriving DecidableEq, Repr

/-- R199: the notice mode. -/
inductive NoticeMode where
  | event
  | periodic
  deriving DecidableEq, Repr

/-- R192: an entry of the notice buffer. -/
structure NoticeEntry where
  notice : Notice
  time : Word
  deriving DecidableEq, Repr

/-- What the Exchange Unit owns of the notices (R200). -/
structure Ntc where
  /-- Oldest first. -/
  buffer : List NoticeEntry := []
  dropped : Bool := false
  windowOpen : Bool := false
  /-- The notice line: raised, or low. -/
  line : Bool := false
  sequence : BitVec 16 := 0
  restarted : Bool := true
  mode : NoticeMode := .event
  /-- The report interval, in ms. -/
  interval : Nat := 1000
  /-- Bit n masks the kind of code n. -/
  mask : BitVec 16 := 0
  /-- The timers, on the part's millisecond count; none: stopped, idle. -/
  reportDue : Option Nat := none
  holdDue : Option Nat := none
  /-- The model's own: BUS_ERROR has said that the next fill of the page fails once so many bytes have reached memory. -/
  fillFails : Option Nat := none
  deriving DecidableEq, Repr

/-- The model's own: what ISU or TKR answered to the last ask that came to it as a command of its own. -/
inductive AskAnswer where
  | taken
  | outOfStock
  /-- An uncommit that changed neither count: the line's stock mark is cleared (R72). -/
  | markCleared
  | drawServed
  | drawRefused
  | ticketMade (tag : Tag)
  | noRoute
  | noTicket
  deriving DecidableEq, Repr

/-- R1: the blocks that hand commands over to one another. SPE computes inside CKS's requests, and hands nothing over. -/
inductive Block where
  | exu
  | cks
  | isu
  | tkr
  | slc
  | dmw
  deriving DecidableEq, Repr

/-! ### The whole part -/

/-- The state of the part. -/
structure State where
  /-- The milliseconds since power-on, on which every timer is measured: unlike the day clock it neither wraps nor returns to
  0 at CLOSE_DAY or soft reset, and neither shortens or lengthens the time left to a timer (R180). -/
  uptime : Nat := 0
  /-- The model's own: how many free values (`Config.freeWord`) have been used; the next one is the one of this number (log entry 17). -/
  freeValues : Nat := 0
  exu : Exu := {}
  ntc : Ntc := {}
  cks : Cks := {}
  isu : Isu := {}
  tkr : Tkr := {}
  slc : Slc := {}
  dmw : Dmw := {}
  /-- Host memory, by bus address: the exchange region lies in it (R176). -/
  mem : List Host.Cell := []
  askAnswer : Option AskAnswer := none
  /-- R1: the hand-overs made and not yet taken, oldest first. -/
  handovers : List Instr := []
  /-- The commands that are waiting, first in, first out. -/
  pending : List Instr := []
  deriving DecidableEq, Repr

/-- The part right after power-on reset: every field at the value its rule gives (R2, R6, R8, R66, R75, R97, R116, R143, R159,
R165, R191, R200), no command waiting. -/
def State.reset : State := {}

/-- What stops the machine. The spec names no behaviour of a command that stops the part: every command of the table ends in a
next state, and a failed access to host memory is a BUS_ERROR (R187). So no meaning raises a fault and the type has no
constructor. Safe: nothing can be proved from a stop that never happens. -/
inductive Fault where
  deriving DecidableEq, Repr

/-- Why a command gets no meaning. -/
inductive Refusal where
  /-- Raised by `exec` for a command whose meaning is not modelled yet; no arm raises it now. Safe: the machine stops. -/
  | notModelled (mnemonic : String)
  deriving DecidableEq, Repr

end Sys2Proof.Machine
end

