-- ==== Sys2Proof/Machine/Ops.lean ====
section
/-! DEFINITION. The named operations over tables, host memory, time, the hand-overs between blocks and the answers of requests,
and the accessors of every kind of record. The meanings read and write the state through these alone. -/

namespace Sys2Proof.Machine

/-! ### Tables -/

/-- The record of number `k`: the one listed, or else the default `d`. -/
def Table.read {α : Type} (d : α) : Table α → Nat → α
  | [], _ => d
  | (j, v) :: t, k => if k = j then v else Table.read d t k

/-- The table with `v` listed at `k`, at its place in rising order. -/
def Table.put {α : Type} : Table α → Nat → α → Table α
  | [], k, v => [(k, v)]
  | (j, w) :: t, k, v =>
    if k < j then (k, v) :: (j, w) :: t
    else if k = j then (k, v) :: t
    else (j, w) :: Table.put t k v

/-- The table with nothing listed at `k`. -/
def Table.drop {α : Type} (t : Table α) (k : Nat) : Table α := t.filter (fun e => e.1 ≠ k)

/-- The table with record `k` become `v`; a record equal to the default is not listed. -/
def Table.write {α : Type} [DecidableEq α] (d : α) (t : Table α) (k : Nat) (v : α) : Table α :=
  if v = d then Table.drop t k else Table.put t k v

/-- A table with each of its listed records changed. -/
def Table.mapRecords {α : Type} [DecidableEq α] (d : α) (f : α → α) (t : Table α) : Table α :=
  t.foldl (fun r e => Table.write d r e.1 (f (Table.read d t e.1))) []

/-- The numbers of a table are above `k` and strictly rising. -/
def Table.risingFrom {α : Type} : Nat → Table α → Bool
  | _, [] => true
  | k, (j, _) :: t => decide (k < j) && Table.risingFrom j t

/-- The numbers of a table are strictly rising. -/
def Table.rising {α : Type} : Table α → Bool
  | [] => true
  | (j, _) :: t => Table.risingFrom j t

/-- The canonical form of a table: numbers strictly rising, and no record listed that is the default. -/
def Table.wf {α : Type} [DecidableEq α] (d : α) (t : Table α) : Bool := Table.rising t && t.all (fun e => decide (e.2 ≠ d))

/-- `x` put into a list before the first element that it must come before. -/
def insertBy {α : Type} (before : α → α → Bool) (x : α) : List α → List α
  | [] => [x]
  | y :: l => if before x y then x :: y :: l else y :: insertBy before x l

/-- A list in the order `before` gives; elements neither of which comes before the other keep their order. -/
def sortBy {α : Type} (before : α → α → Bool) : List α → List α
  | [] => []
  | x :: l => insertBy (fun a b => !before b a) x (sortBy before l)

/-- The first `k` from `n` on, among `fuel` numbers, that satisfies `p`. -/
def firstFrom (p : Nat → Bool) : Nat → Nat → Option Nat
  | 0, _ => none
  | fuel + 1, n => if p n then some n else firstFrom p fuel (n + 1)

/-! ### Bytes (R201: little-endian) -/

/-- The bytes of a word, least significant first. -/
def wordBytes (w : Word) : List Byte := [w.extractLsb' 0 8, w.extractLsb' 8 8, w.extractLsb' 16 8, w.extractLsb' 24 8]

/-- The two bytes of a 16-bit value, least significant first. -/
def halfBytes (n : Nat) : List Byte := [BitVec.ofNat 8 n, BitVec.ofNat 8 (n / 256)]

/-- The bytes of a list of words. -/
def wordsBytes (ws : List Word) : List Byte := ws.flatMap wordBytes

/-- The word that four bytes make, least significant first. -/
def bytesWord (b0 b1 b2 b3 : Byte) : Word := (b3 ++ b2 ++ b1 ++ b0 : BitVec 32)

/-! ### Host memory and the exchange region -/

/-- What a byte of host memory that nothing has written reads as. DESIGN CHOICE (log entry 1), unsafe: the spec says nothing of
what host memory holds before the host writes it. -/
abbrev Memory.unwritten : Byte := 0

/-- The canonical form of memory. -/
abbrev Memory.wf (m : List Host.Cell) : Bool := Table.wf Memory.unwritten m

/-- One byte of host memory. -/
def State.byteAt (s : State) (a : Nat) : Byte := Table.read Memory.unwritten s.mem a

/-- One byte of host memory written. -/
def State.setByte (s : State) (a : Nat) (b : Byte) : State :=
  { s with mem := Table.write Memory.unwritten s.mem a b }

/-- R176: the bus address of a byte of the region; addresses are 64 bits wide. -/
def State.busAddress (s : State) (offset : Nat) : Nat :=
  (s.exu.baseHi.toNat * 4294967296 + s.exu.baseLo.toNat + offset) % 18446744073709551616

/-- Bytes written one after another from an offset of the region. -/
def State.writeBytes (s : State) (offset : Nat) : List Byte → State
  | [] => s
  | b :: l => State.writeBytes (s.setByte (s.busAddress offset) b) (offset + 1) l

/-- The word at an offset of the region (R201). -/
def State.wordAt (s : State) (offset : Nat) : Word :=
  bytesWord (s.byteAt (s.busAddress offset)) (s.byteAt (s.busAddress (offset + 1)))
    (s.byteAt (s.busAddress (offset + 2))) (s.byteAt (s.busAddress (offset + 3)))

/-- R176: the region is set while the stored size lies in 16..4,096. -/
def State.regionSet (s : State) : Bool := decide (16 ≤ s.exu.size.toNat) && decide (s.exu.size.toNat ≤ 4096)

/-- R176: the bytes of the region: none while it is unset. -/
def State.regionBytes (s : State) : Nat := if s.regionSet then s.exu.size.toNat * Config.pageBytes else 0

/-- R176: the offset of a slip is a multiple of 64, at least 4,096 and below the region's end. -/
def State.slipPlace (s : State) (offset : Word) : Bool :=
  decide (offset.toNat % Config.slipBytes = 0) && decide (Config.pageBytes ≤ offset.toNat) &&
    decide (offset.toNat < s.regionBytes)

/-- R176: bytes written into the slip at an offset. Where RUN 0 was written with the slip in work and the base or the size was then
changed, they go to the region as it now stands, and a slip that no longer lies in it is not written: the part reaches no host memory
outside the region (DESIGN CHOICE, log entry 54). -/
def State.writeSlip (s : State) (offset : Word) (at_ : Nat) (bytes : List Byte) : State :=
  if s.slipPlace offset then s.writeBytes (offset.toNat + at_) bytes else s

/-- R26, step 1: the tests of a buffer named by a request: a multiple of 4, not on the notice page, inside the region, not
over the slip that carries the request. A buffer of length 0 covers no byte, so it overlaps no slip wherever it lies, though R26 does
not say so (DESIGN CHOICE, log entry 47). -/
def State.bufferOk (s : State) (offset length : Word) : Bool :=
  decide (offset.toNat % 4 = 0) && decide (Config.pageBytes ≤ offset.toNat) &&
    decide (offset.toNat + length.toNat ≤ s.regionBytes) &&
    match s.exu.inWork with
    | none => true
    | some w => decide (offset.toNat + length.toNat ≤ w.offset.toNat ∨ w.offset.toNat + Config.slipBytes ≤ offset.toNat ∨ length.toNat = 0)

/-! ### Time -/

/-- `ms` milliseconds pass: the day clock counts them, 32 bits wide (R180). -/
def State.advance (s : State) (ms : Nat) : State :=
  { s with uptime := s.uptime + ms, exu := { s.exu with dayClock := s.exu.dayClock + BitVec.ofNat 32 ms } }

/-- The clock goes on to the moment a timer runs out, if it has not come to it yet (log entry 6). -/
def State.advanceTo (s : State) (due : Nat) : State := s.advance (due - s.uptime)

/-- R180: a batch slot whose lots' expiry times, day-clock values, go back by `now` with the clock. -/
def Batch.backBy (now : Word) (b : Batch) : Batch :=
  { b with lots := b.lots.map (fun l => { l with expiry := l.expiry - now }) }

/-- R30, R180: the day clock returns to 0. The expiry times of the lots and the due times of the delayed lines, which are day-clock
values, go back with it, so the return neither shortens nor lengthens the time left to them (DEDUCED, log entry 63). -/
def State.clockToZero (s : State) : State :=
  { s with
    exu := { s.exu with dayClock := 0 }
    isu := { s.isu with batches := Table.mapRecords {} (Batch.backBy s.exu.dayClock) s.isu.batches }
    tkr := { s.tkr with delays := s.tkr.delays.map (fun d => { d with due := d.due - s.exu.dayClock }) } }

/-- The milliseconds until the day clock reaches the value `t`: 0 once it has. Day-clock values are compared round the wrap
(R180). -/
def State.msUntil (s : State) (t : Word) : Nat := (t - s.exu.dayClock).toInt.toNat

/-- The day clock has reached the value `t` (R82, R101). -/
def State.reached (s : State) (t : Word) : Bool := decide ((t - s.exu.dayClock).toInt ≤ 0)

/-- The milliseconds since the day-clock value `t`. -/
def State.age (s : State) (t : Word) : Nat := (s.exu.dayClock - t).toNat

/-- A duration in seconds from now, as a moment. -/
def State.dueIn (s : State) (seconds : Nat) : Nat := s.uptime + seconds * 1000

/-! ### Hand-overs, notices and answers -/

/-- A block hands a command over to another: it joins the tail, so the receiver sees hand-overs in the order made (R1). -/
def State.hand (s : State) (c : Instr) : State := { s with handovers := s.handovers ++ [c] }

/-- Several hand-overs, in order. -/
def State.handAll (s : State) (cs : List Instr) : State := { s with handovers := s.handovers ++ cs }

/-- R192: the block that raises a notice, by its kind and, for WASTE, its cause (R206). -/
def noticeSender (n : Notice) : Block :=
  match n.kind with
  | .ticketState | .orderReady | .orderRecalled | .unsent => .tkr
  | .checkTaken => .cks
  | .itemOut | .itemBack | .stockLow | .stockShort | .batchBehind | .batchSkipped => .isu
  | .waste => if n.values[0]? = some 3 then .tkr else .isu
  | .paceChange => .dmw
  | .stationState => .slc
  | .chainDone | .chainAbandoned => .exu

/-- R1: the block that hands a command over and the block that receives it; none for a command that no block hands over. A GATE_TEST,
which CKS and SLC hand to ISU and which says nothing but that the gates be tested, is kept in the order of CKS, whichever of the two
made it: SLC hands nothing else to ISU (log entry 10). -/
def pathOf : Instr → Option (Block × Block)
  | .nop _ | .setNotices _ _ _ _ | .ackRestart _ => some (.exu, .exu)
  | .openCheck _ _ | .park _ _ | .pickUp _ _ | .forcePickUp _ _ | .addLine _ _ _ _ _ _ _ _ _ _ | .voidLine _ _ _
  | .compLine _ _ _ | .setShare _ _ _ _ | .readCheck _ _ _ _ | .reopen _ _ | .exportClosed _ _ _
  | .setStand _ _ _ _ _ _ _ _ _ _ _ | .setTill _ _ _ _ | .standState _ _ _ | .cutOff _ _ | .closeDay _
  | .setSplit _ _ _ _ _ _ _ _ _ _ _ | .quote _ _ | .tender _ _ _ _ _ _ | .voidTender _ _ _ | .settle _ _ | .fire _ _ _ =>
    some (.exu, .cks)
  | .setItem _ _ _ _ _ _ _ _ _ _ | .setBatch _ _ _ _ _ _ _ _ _ _ _ | .receiveStock _ _ _ | .countStock _ _ _
  | .restartBatch _ _ _ | .readItem _ _ => some (.exu, .isu)
  | .prioritize _ _ _ | .recallTicket _ _ | .readStation _ _ _ _ => some (.exu, .tkr)
  | .setStation _ _ _ _ _ => some (.exu, .slc)
  | .setPace _ _ _ _ _ _ _ _ _ _ _ | .readDemand _ _ _ => some (.exu, .dmw)
  | .firing _ _ _ | .checkCloseTold _ | .kitchenVoid _ _ _ _ | .slotFreed _ | .tkrDayClose | .delayListJoin _ _ =>
    some (.cks, .tkr)
  | .reserve _ _ | .release _ _ | .commit _ _ | .uncommit _ _ _ | .isuDayClose | .gateTest =>
    some (.cks, .isu)
  | .dmwDayClose => some (.cks, .dmw)
  | .batchTicketAsk _ _ => some (.isu, .tkr)
  | .pairingChange _ => some (.isu, .dmw)
  | .warmerDraw _ _ | .batchBump _ _ | .batchCancel _ | .voidReturn _ _ _ => some (.tkr, .isu)
  | .countAdd _ _ _ | .countTake _ _ _ => some (.tkr, .dmw)
  | .keyAnswer _ _ | .frameHandover _ _ | .refreshRequest _ | .refreshAnswer _ _ _ => some (.tkr, .slc)
  | .bump _ _ | .recall _ _ | .linkStateTkr _ _ _ | .fallbackChangeTkr _ | .shownSetAsk _ _ => some (.slc, .tkr)
  | .keyFrame _ _ _ | .hello _ _ _ | .status _ _ _ | .frameRejected _ _ _ => some (.slc, .slc)
  | .paceChangeTkr _ _ => some (.dmw, .tkr)
  | .paceChangeIsu _ _ => some (.dmw, .isu)
  | .noticeRaise n => some (noticeSender n, .exu)
  | .powerOnReset | .softReset _ | .run _ | .exchangeBaseLo _ | .exchangeBaseHi _ | .exchangeSize _ | .post _ | .notice _
  | .fault _ | .registerWriteIgnored _ _ _ | .walkerTakeSlip _ | .outcomeWrite | .busError _ | .delayExpiry _
  | .focusTimerExpiry _ | .lateTimerExpiry _ | .lotExpiry _ | .batchTimerExpiry _ | .leadTimerExpiry _ | .sampleTimerExpiry
  | .receiveGapTimeout _ | .frameSent _ | .statusTimerExpiry _ | .busyWaitExpiry _ | .probeTimerExpiry _ | .reportTimerExpiry
  | .fillRetryHoldEnd | .byteArrival _ _ => none

/-- R1: a command taken off a list of hand-overs: the first equal to it, unless an earlier one of the same sender and receiver still
waits, which must reach the receiver before it. -/
def takeFirst (c : Instr) : List Instr → List Instr
  | [] => []
  | d :: l => if d = c then l else if pathOf d = pathOf c then d :: l else d :: takeFirst c l

/-- A command is taken: a hand-over equal to it, if one waits whose turn it is (R1), waits no more. A command that equals none, or
one whose turn has not come, is an event of its own, and the hand-overs wait on (log entry 10). -/
def State.taken (s : State) (c : Instr) : State := { s with handovers := takeFirst c s.handovers }

/-- R1: the hand-overs of one block to another that wait, in the order made. -/
def State.waitingFor (s : State) (sender receiver : Block) : List Instr :=
  s.handovers.filter (fun c => decide (pathOf c = some (sender, receiver)))

/-- R192: a block raises a notice: it is handed to EXU. -/
def State.raise (s : State) (kind : NoticeKind) (subject : Word) (values : List Word) : State :=
  s.hand (.noticeRaise { kind := kind, subject := subject, values := values })

/-- The owner's answer to a request (R185 step 6). -/
def State.answerWith (s : State) (a : Answer) : State := { s with exu := { s.exu with answer := some a } }

/-- The answer to an ask that came as a command of its own. -/
def State.askAnswered (s : State) (a : AskAnswer) : State := { s with askAnswer := some a }

/-- What a meaning answers. -/
abbrev Out := Host.Outcome State Fault Refusal

/-- A request is refused: its answer is REFUSED with the reason, and nothing else changes. -/
def refuse (reason : Reason) (s : State) : Out := .next (s.answerWith (.refused reason none))

/-- A request is done, with its result words. -/
def finish (results : List Word) (s : State) : Out := .next (s.answerWith (.done results))

/-- Free values are used: the next ones have higher numbers. -/
def State.useFree (s : State) (n : Nat) : State := { s with freeValues := s.freeValues + n }

/-! ### Records by number -/

def State.stand (s : State) (n : StandId) : Stand := Table.read {} s.cks.stands n.val
def State.setStand (s : State) (n : StandId) (v : Stand) : State :=
  { s with cks := { s.cks with stands := Table.write {} s.cks.stands n.val v } }

def State.till (s : State) (n : Nat) : Till := Table.read {} s.cks.tills n
def State.setTill (s : State) (n : Nat) (v : Till) : State :=
  { s with cks := { s.cks with tills := Table.write {} s.cks.tills n v } }

def State.checkSlot (s : State) (n : BitVec 10) : CheckSlot := Table.read {} s.cks.slots n.toNat
def State.setCheckSlot (s : State) (n : BitVec 10) (v : CheckSlot) : State :=
  { s with cks := { s.cks with slots := Table.write {} s.cks.slots n.toNat v } }

def State.item (s : State) (n : ItemId) : Item := Table.read {} s.isu.items n.val
def State.setItem (s : State) (n : ItemId) (v : Item) : State :=
  { s with isu := { s.isu with items := Table.write {} s.isu.items n.val v } }

def State.batch (s : State) (n : SlotId) : Batch := Table.read {} s.isu.batches n.val
def State.setBatch (s : State) (n : SlotId) (v : Batch) : State :=
  { s with isu := { s.isu with batches := Table.write {} s.isu.batches n.val v } }

/-- R75: the level factor ISU holds for a stand. -/
def State.factor (s : State) (n : StandId) : Level := Table.read .normal s.isu.levels n.val
def State.setFactor (s : State) (n : StandId) (v : Level) : State :=
  { s with isu := { s.isu with levels := Table.write .normal s.isu.levels n.val v } }

def State.ticketRec (s : State) (n : Nat) : TicketRec := Table.read {} s.tkr.tickets n
def State.setTicketRec (s : State) (n : Nat) (v : TicketRec) : State :=
  { s with tkr := { s.tkr with tickets := Table.write {} s.tkr.tickets n v } }

def State.queues (s : State) (n : StationId) : Queues := Table.read {} s.tkr.queues n.val
def State.setQueues (s : State) (n : StationId) (v : Queues) : State :=
  { s with tkr := { s.tkr with queues := Table.write {} s.tkr.queues n.val v } }

def State.link (s : State) (n : StationId) : Link := Table.read {} s.slc.links n.val
def State.setLink (s : State) (n : StationId) (v : Link) : State :=
  { s with slc := { s.slc with links := Table.write {} s.slc.links n.val v } }

def State.pace (s : State) (n : StandId) : Pace := Table.read {} s.dmw.paces n.val
def State.setPace (s : State) (n : StandId) (v : Pace) : State :=
  { s with dmw := { s.dmw with paces := Table.write {} s.dmw.paces n.val v } }

/-- The filter of a batch slot. -/
def State.demand (s : State) (n : SlotId) : Filter := Table.read {} s.dmw.filters n.val
def State.setDemand (s : State) (n : SlotId) (v : Filter) : State :=
  { s with dmw := { s.dmw with filters := Table.write {} s.dmw.filters n.val v } }

/-! ### Checks by handle, tickets by tag -/

/-- R8: the check a handle names, while the handle is live. -/
def State.check (s : State) (h : Handle) : Option Check :=
  let r := s.checkSlot h.slot
  if r.gen = h.gen then r.check else none

/-- The check a handle names becomes `c`. -/
def State.setCheck (s : State) (h : Handle) (c : Check) : State := s.setCheckSlot h.slot { gen := h.gen, check := some c }

/-- R8: a slot is freed: its generation advances by one, 63 wrapping to 0. -/
def State.freeSlot (s : State) (h : Handle) : State := s.setCheckSlot h.slot { gen := h.gen + 1, check := none }

/-- The checks in use. -/
def State.checks (s : State) : List (Handle × Check) :=
  s.cks.slots.filterMap (fun e => e.2.check.map (fun c => (({ slot := BitVec.ofNat 10 e.1, gen := e.2.gen } : Handle), c)))

/-- R12: the line records in use: the sum of the line-list lengths of all checks in use. -/
def State.linesInUse (s : State) : Nat := (s.checks.map (fun e => e.2.lines.length)).sum

/-- R97: the ticket a tag names, while the tag is live. -/
def State.ticket (s : State) (t : Tag) : Option Ticket :=
  let r := s.ticketRec t.index.toNat
  if t.index.toNat < Config.ticketRecords ∧ r.gen = t.gen then r.ticket else none

/-- The ticket a record of that index holds. -/
def State.ticketAt (s : State) (i : Nat) : Option Ticket := (s.ticketRec i).ticket

/-- The tag of the ticket that the record of index `i` holds. -/
def State.tagAt (s : State) (i : Nat) : Tag := { index := BitVec.ofNat 11 i, gen := (s.ticketRec i).gen }

/-- The ticket that record `i` holds becomes `t`. -/
def State.setTicketAt (s : State) (i : Nat) (t : Ticket) : State :=
  s.setTicketRec i { gen := (s.ticketRec i).gen, ticket := some t }

/-- R97: a record is freed: its generation advances by one, 15 wrapping to 0. -/
def State.freeRecord (s : State) (i : Nat) : State :=
  s.setTicketRec i { gen := (s.ticketRec i).gen + 1, ticket := none }

/-- The tickets in use, by index. -/
def State.tickets (s : State) : List (Nat × Ticket) :=
  s.tkr.tickets.filterMap (fun e => e.2.ticket.map (fun t => (e.1, t)))

/-- The line a line reference names, with its check, while the reference is live (R12). -/
def State.line (s : State) (r : LineRef) : Option (Check × Line) :=
  match s.check r.check with
  | none => none
  | some c => (c.lines[r.line]?).map (fun l => (c, l))

/-- A change of one line's record. -/
def State.mapLine (s : State) (r : LineRef) (f : Line → Line) : State :=
  match s.check r.check with
  | none => s
  | some c => s.setCheck r.check { c with lines := c.lines.modify r.line f }

/-- A change of a check's record; nothing while the handle is not live. -/
def State.mapCheck (s : State) (h : Handle) (f : Check → Check) : State :=
  match s.check h with
  | none => s
  | some c => s.setCheck h (f c)

end Sys2Proof.Machine
end

