-- ==== Sys2Proof/Machine/Operands.lean ====
section
/-! DEFINITION. The operand forms of the requests and the codes of every value (R201 to R209): an operand word becomes the value
it names, or none where the owner refuses it RANGE. A word whose unnamed bits are not 0 is out of range (R201, last paragraph);
for an operand that is a number the whole word is the number, so such a word is above the range. -/

namespace Sys2Proof

/-! ### Codes of the names of Syntax.lean (R201, R205 to R209) -/

/-- R201: a check handle as a word. -/
def Handle.toWord (h : Handle) : Word := (0#10 ++ h.gen ++ 0#6 ++ h.slot : BitVec 32)

/-- R201: a ticket tag as a word. -/
def Tag.toWord (t : Tag) : Word := (0#16 ++ t.gen ++ 0#1 ++ t.index : BitVec 32)

def TicketClass.rank : TicketClass → Nat
  | .normal => 0
  | .express => 1
  | .suite => 2

def Level.code : Level → Nat
  | .normal => 0
  | .busy => 1
  | .rush => 2

def LinkState.code : LinkState → Nat
  | .offline => 0
  | .starting => 1
  | .live => 2
  | .dark => 3
  | .rejoining => 4

def FireState.code : FireState → Nat
  | .held => 0
  | .timing => 1
  | .fired => 2
  | .served => 3
  | .unsent => 4

def StatusCode.byte : StatusCode → Byte
  | .ack => 0x01
  | .nakCheck => 0x02
  | .busy => 0x03
  | .stale => 0x04
  | .badFrame => 0x05

def NoticeKind.code : NoticeKind → Nat
  | .ticketState => 0
  | .orderReady => 1
  | .orderRecalled => 2
  | .checkTaken => 3
  | .unsent => 4
  | .itemOut => 5
  | .itemBack => 6
  | .stockLow => 7
  | .stockShort => 8
  | .waste => 9
  | .batchBehind => 10
  | .batchSkipped => 11
  | .paceChange => 12
  | .stationState => 13
  | .chainDone => 14
  | .chainAbandoned => 15

end Sys2Proof

namespace Sys2Proof.Machine

/-! ### Operand words -/

/-- R201: a check handle: slot in bits 0..9, generation in bits 16..21, every other bit 0. -/
def handleOf (w : Word) : Option Handle :=
  if w &&& 0xFFC0FC00 = 0 then some { slot := w.extractLsb' 0 10, gen := w.extractLsb' 16 6 } else none

/-- R201: a ticket tag: index in bits 0..10, generation in bits 12..15, every other bit 0; an index above 1,535 is out of range
(R97). -/
def tagOf (w : Word) : Option Tag :=
  if w &&& 0xFFFF0800 = 0 ∧ (w.extractLsb' 0 11).toNat < Config.ticketRecords then
    some { index := w.extractLsb' 0 11, gen := w.extractLsb' 12 4 }
  else none

/-- The tag of a frame's two bytes; the unnamed bit is ignored (R201). -/
def tagOfBytes (b0 b1 : Byte) : Tag :=
  let w : BitVec 16 := b1 ++ b0
  { index := w.extractLsb' 0 11, gen := w.extractLsb' 12 4 }

/-- A tag, or "absent" (R201). -/
def tagWord : Option Tag → Word
  | none => Word.absent
  | some t => t.toWord

/-- A number, or "none" (R201). -/
def countWord : Option Nat → Word
  | none => Word.absent
  | some n => Word.ofCount n

/-- A number that fits a byte, or "none" (R201). -/
def countByte : Option Nat → Byte
  | none => Byte.absent
  | some n => BitVec.ofNat 8 n

/-- A number below `n`. -/
def finOf (n : Nat) (w : Word) : Option (Fin n) := if h : w.toNat < n then some ⟨w.toNat, h⟩ else none

def standOf (w : Word) : Option StandId := finOf 16 w
def stationOf (w : Word) : Option StationId := finOf 24 w
def slotOf (w : Word) : Option SlotId := finOf 32 w
def itemOf (w : Word) : Option ItemId := finOf 2048 w

/-- A number below `n`, or "none"; the outer option is the range test. -/
def finOrNone (n : Nat) (w : Word) : Option (Option (Fin n)) :=
  if w = Word.absent then some none else (finOf n w).map some

/-- Yes 1, no 0 (R201). -/
def yesNo (w : Word) : Option Bool := if w = 0 then some false else if w = 1 then some true else none

/-- A number within a range, both ends included. -/
def within (lo hi : Nat) (w : Word) : Option Nat := if lo ≤ w.toNat ∧ w.toNat ≤ hi then some w.toNat else none

/-- A signed number, two's complement, within a range, both ends included. -/
def withinSigned (lo hi : Int) (w : Word) : Option Int := if lo ≤ w.toInt ∧ w.toInt ≤ hi then some w.toInt else none

def classOf (w : Word) : Option TicketClass :=
  if w = 0 then some .normal else if w = 1 then some .express else if w = 2 then some .suite else none

def policyOf (w : Word) : Option FirePolicy := if w = 0 then some .onEntry else if w = 1 then some .onSettle else none

def standStateOf (w : Word) : Option StandState :=
  if w = 0 then some .opened else if w = 1 then some .lastOrders else if w = 2 then some .closed else none

/-- R3: a cash increment. -/
def incrementOf (w : Word) : Option Nat :=
  if w = 1 ∨ w = 5 ∨ w = 10 ∨ w = 25 then some w.toNat else none

/-- R6: a till's open/closed state, in the order R6 lists them: open 0, closed 1 (DEDUCED, log entry 14). -/
def tillOpenOf (w : Word) : Option Bool := if w = 0 then some true else if w = 1 then some false else none

def tenderKindOf (w : Word) : Option TenderKind :=
  if w = 0 then some .cash else if w = 1 then some .card else if w = 2 then some .voucher else none

def batchModeOf (w : Word) : Option BatchMode :=
  if w = 0 then some .off else if w = 1 then some .paced else if w = 2 then some .onDemand else none

def levelOf (w : Word) : Option Level :=
  if w = 0 then some .normal else if w = 1 then some .busy else if w = 2 then some .rush else none

def noticeModeOf (w : Word) : Option NoticeMode := if w = 0 then some .event else if w = 1 then some .periodic else none

/-- R201: a fire mode word: the mode in bits 0..7, the delay or group in bits 16..31, bits 8..15 zero. An IMMEDIATE line has
neither, and its bits 16..31 are not tested (DEDUCED, log entry 16). -/
def fireModeOf (w : Word) : Option FireMode :=
  if w &&& 0x0000FF00 ≠ 0 then none
  else
    let mode := w &&& 0x000000FF
    let n := (w.extractLsb' 16 16).toNat
    if mode = 0 then some .immediate
    else if mode = 1 then (if 1 ≤ n ∧ n ≤ 3600 then some (.delayed n) else none)
    else if mode = 2 then (if 1 ≤ n ∧ n ≤ 3 then some (.onCall n) else none)
    else none

/-- R201: a share mask: bit 8 for ALL, else bits 0..7, one a payer; the empty set makes the line UNASSIGNED (R25). With bit 8 set
the low bits are not read (DEDUCED, log entry 15). -/
def shareOf (w : Word) : Option Share :=
  if w &&& 0xFFFFFE00 ≠ 0 then none
  else if w &&& 0x100 ≠ 0 then some .all
  else if w = 0 then some .unassigned
  else some (.payers (w.extractLsb' 0 8))

/-- R201: a route entry's byte: a station, or 255 for none; the outer option is the range test. -/
def routeOf (b : Byte) : Option (Option StationId) :=
  if b = Byte.absent then some none else if h : b.toNat < 24 then some (some ⟨b.toNat, h⟩) else none

/-- The values of a list, if every element has one. -/
def allSome {α : Type} : List (Option α) → Option (List α)
  | [] => some []
  | none :: _ => none
  | some a :: l => (allSome l).map (fun r => a :: r)

/-- R201: the eight route entries of SET_STAND. -/
def routesOf (lo hi : Word) : Option (List (Option StationId)) :=
  allSome ((wordBytes lo ++ wordBytes hi).map routeOf)

/-! ### Codes -/

def boolWord (b : Bool) : Word := if b then 1 else 0
def boolByte (b : Bool) : Byte := if b then 1 else 0

def CheckState.code : CheckState → Nat
  | .opened => 0
  | .paying => 1
  | .closed => 2
  | .exported => 3

def TicketState.code : TicketState → Nat
  | .waiting => 0
  | .shown => 1
  | .bumped => 2

def TenderKind.code : TenderKind → Nat
  | .cash => 0
  | .card => 1
  | .voucher => 2

def BatchMode.code : BatchMode → Nat
  | .off => 0
  | .paced => 1
  | .onDemand => 2

def Countdown.code : Countdown → Nat
  | .idle => 0
  | .running _ => 1
  | .held _ => 2

def NoticeMode.code : NoticeMode → Nat
  | .event => 0
  | .periodic => 1

/-- R209: the status code of a byte; none where the byte is no code. -/
def statusOf (b : Byte) : Option StatusCode :=
  if b = 0x01 then some .ack
  else if b = 0x02 then some .nakCheck
  else if b = 0x03 then some .busy
  else if b = 0x04 then some .stale
  else if b = 0x05 then some .badFrame
  else none

def Reason.code : Reason → Nat
  | .badRequest => 1
  | .range => 2
  | .noCheck => 3
  | .held => 4
  | .notHeld => 5
  | .wrongStand => 6
  | .authority => 7
  | .noSlot => 8
  | .lineFull => 9
  | .poolFull => 10
  | .noItem => 11
  | .outOfStock => 12
  | .cutOff => 13
  | .standClosed => 14
  | .splitFrozen => 15
  | .unassigned => 16
  | .badMask => 17
  | .overTender => 18
  | .payerPaid => 19
  | .checkClosed => 20
  | .notClosed => 21
  | .exported => 22
  | .tillFull => 23
  | .tillBusy => 24
  | .notSettled => 25
  | .noTicket => 26
  | .openChecks => 27
  | .notExported => 28
  | .standBusy => 29
  | .itemBusy => 30
  | .notPaid => 31
  | .tenderVoid => 32
  | .noRoom => 33

/-- R201: a share mask as it is written: bits 0..7 one a payer, bit 8 for ALL, 0 for UNASSIGNED. -/
def Share.toNat : Share → Nat
  | .all => 256
  | .payers m => m.toNat
  | .unassigned => 0

def FireMode.code : FireMode → Nat
  | .immediate => 0
  | .delayed _ => 1
  | .onCall _ => 2

/-- R207: the delay or group of a fire mode; IMMEDIATE has neither, and its record holds 0 (DESIGN CHOICE, log entry 67). -/
def FireMode.operand : FireMode → Nat
  | .immediate => 0
  | .delayed d => d
  | .onCall g => g

end Sys2Proof.Machine
end

