-- ==== Sys2Proof/Machine/Split.lean ====
section
/-! DEFINITION. The Split Engine (R32 to R47): line amounts, the allocation primitive with its cursor, and the due table; and the
cash rounding of R45 and R46. -/

namespace Sys2Proof.Machine

/-! ### Line amounts (R37) -/

/-- A line is live while its void mark is clear (R12). -/
def Line.live (l : Line) : Bool := !l.void

/-- R37 step 3: the effective unit: the unit price plus the sum of the deltas, and 0 where that is negative. -/
def Line.unit (l : Line) : Nat := ((l.price : Int) + l.deltas.sum).toNat

/-- R37 steps 2 and 3: the amount of a live line. -/
def Line.amount (l : Line) : Nat := if l.comp then 0 else l.quantity * l.unit

/-- R37: the class net of a tax class: the sum of the amounts of its live lines. -/
def classNet (lines : List Line) (k : Nat) : Nat :=
  ((lines.filter (fun l => l.live && decide (l.taxClass.val = k))).map Line.amount).sum

/-! ### The allocation primitive (R38) -/

/-- The result of one allocation: each payer's share, and the cursor it leaves. -/
structure Allocation where
  shares : List Nat
  cursor : Nat
  deriving DecidableEq, Repr

/-- The payers 0..n−1 in cyclic order from the cursor: c, c+1, …, n−1, 0, …, c−1. -/
def cyclicFrom (n c : Nat) : List Nat := ((List.range n).drop c) ++ ((List.range n).take c)

/-- R38 step 2: a payer's remainder. -/
def remainderOf (a total : Nat) (weights : List Nat) (p : Nat) : Nat := a * weights.getD p 0 % total

/-- R38 step 4: the payers of weight above 0, in order of descending remainder and, among equals, cyclic order from the cursor. -/
def choosingOrder (a total : Nat) (weights : List Nat) (c : Nat) : List Nat :=
  sortBy (fun p q => decide (remainderOf a total weights q < remainderOf a total weights p))
    ((cyclicFrom weights.length c).filter (fun p => decide (0 < weights.getD p 0)))

/-- R38: `a` divided among the payers in proportion to their weights, the leftover units handed out one at a time. -/
def allocate (a : Nat) (weights : List Nat) (c : Nat) : Allocation :=
  if a = 0 then { shares := weights.map (fun _ => 0), cursor := c }
  else
    let total := weights.sum
    let bases := weights.map (fun w => a * w / total)
    let left := a - bases.sum
    let chosen := (choosingOrder a total weights c).take left
    { shares := bases.zipIdx.map (fun e => e.1 + if chosen.contains e.2 then 1 else 0)
      cursor := match chosen.getLast? with
        | none => c
        | some p => (p + 1) % weights.length }

/-! ### Order of allocations (R40 to R42) -/

/-- R40: the weights of a line's allocation: the plan's for ALL; the plan's inside an explicit mask and 0 outside. -/
def shareWeights (plan : List Nat) : Share → List Nat
  | .all => plan
  | .payers m => plan.zipIdx.map (fun e => if m.getLsbD e.2 then e.1 else 0)
  | .unassigned => plan.map (fun _ => 0)

/-- Two lists added place by place. -/
def addEach (a b : List Nat) : List Nat := List.zipWith (· + ·) a b

/-- R40: what the first group has built so far: each payer's net, each payer's net in each class (by class), and the cursor. -/
structure LineShares where
  nets : List Nat
  classNets : List (List Nat)
  cursor : Nat
  deriving DecidableEq, Repr

/-- R40: one line's allocation. -/
def allocateLine (plan : List Nat) (acc : LineShares) (l : Line) : LineShares :=
  if l.void then acc
  else
    let r := allocate l.amount (shareWeights plan l.share) acc.cursor
    { nets := addEach acc.nets r.shares
      classNets := acc.classNets.modify l.taxClass.val (fun n => addEach n r.shares)
      cursor := r.cursor }

/-- R40: the first group, the lines in list order, the cursor 0 at the start (R39). -/
def allocateLines (plan : List Nat) (lines : List Line) : LineShares :=
  let zero := plan.map (fun _ => 0)
  lines.foldl (allocateLine plan) { nets := zero, classNets := [zero, zero, zero, zero], cursor := 0 }

/-- R41, R42: an amount at a rate in basis points, half a unit rounded up. -/
def atRate (amount rate : Nat) : Nat := (amount * rate + 5000) / 10000

/-- R41: what the second group has built so far: the payers' taxes, a list for each class done, and the cursor. -/
structure TaxShares where
  taxes : List (List Nat)
  cursor : Nat
  deriving DecidableEq, Repr

/-- R41: one class tax's allocation, weighted by what each payer took in the class. -/
def allocateTax (taxes : List Nat) (s : LineShares) (acc : TaxShares) (k : Nat) : TaxShares :=
  let r := allocate (taxes.getD k 0) (s.classNets.getD k []) acc.cursor
  { taxes := acc.taxes ++ [r.shares], cursor := r.cursor }

/-- R41: the second group, class 0 first and class 3 last. -/
def allocateTaxes (taxes : List Nat) (s : LineShares) : TaxShares :=
  [0, 1, 2, 3].foldl (allocateTax taxes s) { taxes := [], cursor := s.cursor }

/-! ### The due table (R34, R35, R43) -/

/-- R35: some live line's mask is UNASSIGNED. -/
def incomplete (lines : List Line) : Bool := lines.any (fun l => l.live && decide (l.share = .unassigned))

/-- R43: a payer's finished row. -/
def payerRow (net : Nat) (taxes : List Nat) (levy : Nat) : PayerRow :=
  let due := net + taxes.sum + levy
  { net := net, taxes := taxes, levy := levy, due := due, applied := 0, remaining := due, paid := decide (due = 0) }

/-- R36: the due table, built whole from the lines, the plan and the captured rates. -/
def dueTable (lines : List Line) (plan rates : List Nat) (levyRate : Nat) : DueTable :=
  let nets := [0, 1, 2, 3].map (classNet lines)
  let taxes := [0, 1, 2, 3].map (fun k => atRate (nets.getD k 0) (rates.getD k 0))
  let net := nets.sum
  let levy := atRate net levyRate
  let rows :=
    if incomplete lines then plan.map (fun _ => ({} : PayerRow))
    else
      let s := allocateLines plan lines
      let t := allocateTaxes taxes s
      let v := allocate levy s.nets t.cursor
      (List.range plan.length).map (fun p =>
        payerRow (s.nets.getD p 0) (t.taxes.map (fun c => c.getD p 0)) (v.shares.getD p 0))
  { rows := rows, net := net, classNets := nets, classTaxes := taxes, levy := levy,
    total := net + taxes.sum + levy, complete := !incomplete lines }

/-- R36: the check with its due table computed afresh. -/
def Check.recomputed (c : Check) : Check := { c with due := dueTable c.lines c.weights c.rates c.levy }

/-- R39: the cursor is 0 between computations: the one a computation ends with is not kept. -/
def State.speDone (s : State) : State := { s with cks := { s.cks with speCursor := 0 } }

/-! ### Cash rounding (R45, R46) -/

/-- R45: the cash-rounded remaining. -/
def cashRounded (remaining increment : Nat) : Nat :=
  let r := remaining % increment
  if 2 * r < increment then remaining - r else remaining - r + increment

/-- R46, R53 to R55: what a tender applies, gives back, writes off and forfeits. -/
structure Payment where
  applied : Nat
  change : Nat
  adjustment : Int
  forfeit : Nat
  deriving DecidableEq, Repr

/-- R46, R53: a CASH tender. -/
def cashPayment (amount remaining increment : Nat) : Payment :=
  let rounded := cashRounded remaining increment
  if min remaining rounded ≤ amount then
    let change := amount - rounded
    { applied := remaining, change := change, adjustment := (amount : Int) - change - remaining, forfeit := 0 }
  else { applied := amount, change := 0, adjustment := 0, forfeit := 0 }

/-- R54: a CARD tender. -/
def cardPayment (amount : Nat) : Payment := { applied := amount, change := 0, adjustment := 0, forfeit := 0 }

/-- R55: a VOUCHER tender. -/
def voucherPayment (amount remaining : Nat) : Payment :=
  { applied := min amount remaining, change := 0, adjustment := 0, forfeit := amount - min amount remaining }

/-- The rule for the kind (R53 to R55). -/
def payment (kind : TenderKind) (amount remaining increment : Nat) : Payment :=
  match kind with
  | .cash => cashPayment amount remaining increment
  | .card => cardPayment amount
  | .voucher => voucherPayment amount remaining

end Sys2Proof.Machine
end

