-- ==== Sys2Proof/Machine/Flags.lean ====
section
/-! DEFINITION. The flag computations of the part: the FAULT bits (R189, R203), the page flags (R196), the walker state and the
registers as the host reads them (R177, R184, R203), the availability notices of an item (R71), and the order-ready conditions
of a check (R110). -/

namespace Sys2Proof.Machine

/-! ### FAULT -/

/-- R189: the causes at the way in, in the order of their bit numbers (R203). -/
inductive FaultBit where
  | postOverflow
  | postRange
  | slipRange
  | slipFormat
  | slipNotNew
  | chainLong
  | busError
  deriving DecidableEq, Repr

/-- R203: the number of a fault bit. -/
def FaultBit.number : FaultBit → Nat
  | .postOverflow => 0
  | .postRange => 1
  | .slipRange => 2
  | .slipFormat => 3
  | .slipNotNew => 4
  | .chainLong => 5
  | .busError => 6

/-- R189: a fault bit is set; one already set stays set. -/
def State.setFault (s : State) (b : FaultBit) : State :=
  { s with exu := { s.exu with fault := s.exu.fault ||| (1#7 <<< b.number) } }

/-- R196: the flags of a notice page: RESTARTED, DROPPED, FAULT_PENDING. -/
def State.pageFlags (s : State) : Byte :=
  boolByte s.ntc.restarted ||| (boolByte s.ntc.dropped <<< 1) ||| (boolByte (decide (s.exu.fault ≠ 0)) <<< 2)

/-! ### The register window, as the host reads it -/

/-- R184: the walker state's code: STOPPED 0, IDLE 1, WALKING 2 (R203). -/
def State.walkerState (s : State) : Nat :=
  if s.exu.inWork.isSome ∨ (s.exu.run ∧ s.exu.chains ≠ []) then 2
  else if s.exu.run then 1
  else 0

/-- R177, R203: what a read of `width` bytes at `offset` of the window returns. (A read has no row in the table of commands: it
changes no state.) -/
def State.readRegister (s : State) (offset width : Nat) : Word :=
  if width ≠ 4 then 0
  else if offset = 0x00 then Config.idWord
  else if offset = 0x04 then boolWord s.exu.run
  else if offset = 0x14 then Word.ofCount (s.exu.chains.length + s.walkerState * 256)
  else if offset = 0x18 then (s.ntc.sequence ++ 0#15 ++ BitVec.ofBool s.ntc.windowOpen : BitVec 32)
  else if offset = 0x1C then s.exu.fault.zeroExtend 32
  else 0

/-! ### Availability (R71) -/

/-- R70: the available count of a stock-tracked item. -/
def Item.available (i : Item) : Nat := i.onHand - i.reserved

/-- R71: the notices that a change of a tracked item's counts raises, in order: STOCK_LOW before ITEM_OUT. -/
def availabilityNotices (old new : Item) : List NoticeKind :=
  (if new.lowMark ≤ old.available ∧ new.available < new.lowMark then [.stockLow] else []) ++
  (if 0 < old.available ∧ new.available = 0 then [.itemOut] else []) ++
  (if old.available = 0 ∧ 0 < new.available then [.itemBack] else [])

/-- R71: an availability notice of an item. -/
def availabilityNotice (n : ItemId) (i : Item) (kind : NoticeKind) : Instr :=
  .noticeRaise
    { kind := kind, subject := Word.ofCount n.val,
      values := [Word.ofCount i.available, Word.ofCount i.onHand, Word.ofCount i.reserved] }

/-- A change of an item's counts, with the notices it raises; an item not stock-tracked raises none. -/
def State.changeStock (s : State) (n : ItemId) (new : Item) : State :=
  let old := s.item n
  let s1 := s.setItem n new
  if new.tracked then s1.handAll ((availabilityNotices old new).map (availabilityNotice n new)) else s1

/-! ### Order-ready (R110) -/

/-- R110: the conditions of the order-ready test of a check whose stand has the policy given. -/
def Check.ready (c : Check) (policy : FirePolicy) : Bool :=
  decide (c.state = .closed) && !c.orderReady &&
    c.lines.all (fun l => l.void || (decide (l.fire ≠ .timing) && decide (l.fire ≠ .unsent))) &&
    (decide (policy = .onEntry) || c.lines.all (fun l => l.void || decide (l.fire ≠ .held))) &&
    decide (c.ticketsOut = 0) &&
    (decide (0 < c.ticketsFired) || c.lines.any (fun l => !l.void && decide (l.fire = .served)))

end Sys2Proof.Machine
end

