-- ==== Sys2Proof/Machine/Stock.lean ====
section
/-! DEFINITION. The shared operations of the Item and Stock Unit: the four stock asks (R72), pairings (R68), the gate (R89), the
effective interval (R84), sizing and ordering a batch (R87), the lead timer (R88), draws (R79), and the ways lots enter and leave
a warmer (R80 to R82). An operation that orders a batch answers the size for which the Ticket Router must then be asked. -/

namespace Sys2Proof.Machine

/-! ### The stock asks (R72) -/

/-- Reserve: refused OUT_OF_STOCK when available is below the quantity, counts unchanged. None: refused. -/
def reserveAsk (n : ItemId) (q : Nat) (s : State) : Option State :=
  let i := s.item n
  if i.available < q then none else some (s.changeStock n { i with reserved := i.reserved + q })

/-- Release: reserved falls. -/
def releaseAsk (n : ItemId) (q : Nat) (s : State) : State :=
  let i := s.item n
  s.changeStock n { i with reserved := i.reserved - q }

/-- Commit: on-hand and reserved both fall. -/
def commitAsk (n : ItemId) (q : Nat) (s : State) : State :=
  let i := s.item n
  s.changeStock n { i with onHand := i.onHand - q, reserved := i.reserved - q }

/-- Uncommit: on-hand and reserved both rise. False: neither changed, and the line's stock mark is to be cleared; STOCK_SHORT is
raised where on-hand could not take the quantity, and nothing where the item is no longer tracked. -/
def uncommitAsk (n : ItemId) (q : Nat) (s : State) : State × Bool :=
  let i := s.item n
  if !i.tracked then (s, false)
  else if 65535 < i.onHand + q then (s.raise .stockShort (Word.ofCount n.val) [Word.ofCount q], false)
  else (s.changeStock n { i with onHand := i.onHand + q, reserved := i.reserved + q }, true)

/-! ### Pairings (R68) -/

/-- A slot that holds a lot or has an outstanding batch ticket. -/
def Batch.busy (b : Batch) : Bool := !b.lots.isEmpty || b.outstanding.isSome

/-- R68: may the pairing of item `x` become slot `new`, asked by SET_ITEM? Every slot whose pairing would be made or broken is
tested. -/
def itemPairingOk (s : State) (x : ItemId) (new : Option SlotId) : Bool :=
  let old := (s.item x).slot
  if old = new then true
  else
    (match old with
      | none => true
      | some t => !(s.batch t).busy && decide ((s.batch t).mode = .off)) &&
    (match new with
      | none => true
      | some t => !(s.batch t).busy && (decide ((s.batch t).item = none) || decide ((s.batch t).mode = .off)))

/-- R68: may the pairing of slot `t` become item `new`, asked by SET_BATCH? The slot's own mode does not refuse: the same request
sets it OFF or pairs it again. -/
def slotPairingOk (s : State) (t : SlotId) (new : Option ItemId) : Bool :=
  let b := s.batch t
  if b.item = new then true
  else
    !b.busy &&
    (match new with
      | none => true
      | some x =>
        match (s.item x).slot with
        | none => true
        | some u => !(s.batch u).busy && decide ((s.batch u).mode = .off))

/-- The pairing a slot has is broken: its item's slot and its own item become none. -/
def unpairSlot (t : SlotId) (s : State) : State :=
  match (s.batch t).item with
  | none => s
  | some y =>
    let s1 := s.setItem y { s.item y with slot := none }
    s1.setBatch t { s1.batch t with item := none }

/-- The pairing an item has is broken. -/
def unpairItem (x : ItemId) (s : State) : State :=
  match (s.item x).slot with
  | none => s
  | some t =>
    let s1 := s.setBatch t { s.batch t with item := none }
    s1.setItem x { s1.item x with slot := none }

/-- An item and a slot, each unpaired, are paired. -/
def joinPair (x : ItemId) (t : SlotId) (s : State) : State :=
  let s1 := s.setItem x { s.item x with slot := some t }
  s1.setBatch t { s1.batch t with item := some x }

/-- R68, R164: item `x` gets slot `new` or none, and each slot whose pairing changed is handed to Demand Watch. -/
def pairItem (x : ItemId) (new : Option SlotId) (s : State) : State :=
  let old := (s.item x).slot
  if old = new then s
  else
    let s1 := unpairItem x s
    let s2 := match new with
      | none => s1
      | some t => joinPair x t (unpairSlot t s1)
    s2.handAll ((old.toList ++ new.toList).map .pairingChange)

/-- R68, R164: slot `t` gets item `new` or none. -/
def pairSlot (t : SlotId) (new : Option ItemId) (s : State) : State :=
  if (s.batch t).item = new then s
  else
    match new with
    | none => (unpairSlot t s).hand (.pairingChange t)
    | some x =>
      let old := (s.item x).slot
      (joinPair x t (unpairSlot t (unpairItem x s))).handAll ((old.toList ++ [t]).map .pairingChange)

/-! ### Station, gate and interval -/

/-- R75: the slot's station: what the home stand's route table gives for the item's prep route. -/
def slotStation (s : State) (t : SlotId) : Option StationId :=
  let b := s.batch t
  match b.item with
  | none => none
  | some x => ((s.stand b.home).routes.getD (s.item x).prepRoute.val none)

/-- The link of a station, where there is one, is LIVE. -/
def stationLive (s : State) : Option StationId → Bool
  | none => false
  | some st => decide ((s.link st).state = .live)

/-- R89: the gate of a slot is open: its home stand is not CLOSED, and its station or that station's fallback is LIVE, as CKS and SLC
hold them then (DEDUCED, log entry 58). -/
def gateOpen (s : State) (t : SlotId) : Bool :=
  decide ((s.stand (s.batch t).home).state ≠ .closed) &&
    match slotStation s t with
    | none => false
    | some st => stationLive s (some st) || stationLive s (s.link st).fallback

/-- The milliseconds a timer has left. -/
def Countdown.left (now : Nat) : Countdown → Nat
  | .idle => 0
  | .running due => due - now
  | .held left => left

/-- R89: a timer loaded or started: RUNNING, or HELD while the gate is closed. -/
def loadTimer (s : State) (t : SlotId) (ms : Nat) : Countdown :=
  if gateOpen s t then .running (s.uptime + ms) else .held ms

/-- R89: a timer under a gate: a HELD timer runs on when the gate is open, a RUNNING one is held when it is closed. -/
def gateTimer (now : Nat) (isOpen : Bool) : Countdown → Countdown
  | .idle => .idle
  | .running due => if isOpen then .running due else .held (due - now)
  | .held left => if isOpen then .running (now + left) else .held left

/-- R89: the gate of one slot is tested. -/
def gateTestSlot (s : State) (t : SlotId) : State :=
  let b := s.batch t
  let g := gateOpen s t
  s.setBatch t { b with batchTimer := gateTimer s.uptime g b.batchTimer, leadTimer := gateTimer s.uptime g b.leadTimer }

/-- R89: the gate of every slot is tested. -/
def gateTestAll (s : State) : State := (List.finRange 32).foldl gateTestSlot s

/-- R84: an interval at a level, in whole seconds, never below 30. -/
def intervalAt (interval : Nat) : Level → Nat
  | .normal => max Config.shortestInterval interval
  | .busy => max Config.shortestInterval (interval * 3 / 4)
  | .rush => max Config.shortestInterval (interval / 2)

/-- R84: a slot's effective interval, from ISU's own record of its home stand's level. -/
def effective (s : State) (t : SlotId) : Nat := intervalAt (s.batch t).interval (s.factor (s.batch t).home)

/-- R78: the ready count. -/
def Batch.ready (b : Batch) : Nat := (b.lots.map Lot.count).sum

/-- R80: the room: capacity minus the ready count. -/
def Batch.room (b : Batch) : Nat := b.capacity - b.ready

/-- R85: the pending effective interval that a new effective interval leaves on a PACED slot. -/
def pendingFor (cycle new : Nat) : Option Nat := if new = cycle then none else some new

/-! ### Ordering a batch (R86 to R88) -/

/-- R87 step 1: the units expected over `t` seconds, from a demand figure and a sample period, half rounded up. -/
def expectedUnits (figure t period : Nat) : Nat := (figure * t + 8 * period) / (16 * period)

/-- R87 steps 1 to 3: the size of a batch. -/
def batchSize (s : State) (t : SlotId) (seconds : Nat) : Nat :=
  let b := s.batch t
  min (max b.baseSize (expectedUnits (s.demand t).fast seconds s.dmw.period - b.ready)) b.room

/-- What ordering a batch came to: a ticket is outstanding, the warmer is full, or a ticket of a size is to be asked for. -/
inductive BatchOrder where
  | behind
  | full
  | ask (size : Nat)
  deriving DecidableEq, Repr

/-- R86 steps 3 and 4, R87 steps 1 to 4: BATCH_BEHIND if a ticket is outstanding, otherwise a batch sized over `seconds`. -/
def orderBatch (t : SlotId) (seconds : Nat) (s : State) : State × BatchOrder :=
  match (s.batch t).outstanding with
  | some tag => (s.raise .batchBehind (Word.ofCount t.val) [tag.toWord], .behind)
  | none =>
    if batchSize s t seconds = 0 then (s.raise .batchSkipped (Word.ofCount t.val) [0], .full)
    else (s, .ask (batchSize s t seconds))

/-- The size an order asks for, where it asks. -/
def BatchOrder.size : BatchOrder → Option Nat
  | .ask n => some n
  | _ => none

/-- R88: the lead timer is started if it is IDLE and no ticket is outstanding. A delay of 0 with the gate open runs out at once:
the batch is ordered here, and the size to ask for is answered. -/
def startLead (t : SlotId) (s : State) : State × Option Nat :=
  let b := s.batch t
  if b.leadTimer ≠ .idle ∨ b.outstanding.isSome then (s, none)
  else if gateOpen s t ∧ b.leadDelay = 0 then
    let r := orderBatch t (effective s t) s
    (r.1, r.2.size)
  else (s.setBatch t { b with leadTimer := loadTimer s t (b.leadDelay * 1000) }, none)

/-- R83, R88: the ready count fell to what it is now from `before`: past the low mark, an ON_DEMAND slot starts its lead timer. -/
def lowTrigger (t : SlotId) (before : Nat) (s : State) : State × Option Nat :=
  let b := s.batch t
  if b.mode = .onDemand ∧ b.lowMark ≤ before ∧ b.ready < b.lowMark then startLead t s else (s, none)

/-- R77, R88: the low test of an ON_DEMAND slot. -/
def lowTest (t : SlotId) (s : State) : State × Option Nat :=
  let b := s.batch t
  if b.mode = .onDemand ∧ b.ready < b.lowMark then startLead t s else (s, none)

/-! ### Lots (R78 to R82) -/

/-- R206: the causes of WASTE, in the order of their codes. -/
inductive WasteCause where
  | expired
  | overfill
  | returnOverfill
  | voidedCooked
  | dayClose
  deriving DecidableEq, Repr

def WasteCause.code : WasteCause → Nat
  | .expired => 0
  | .overfill => 1
  | .returnOverfill => 2
  | .voidedCooked => 3
  | .dayClose => 4

/-- A WASTE notice for an item. -/
def State.waste (s : State) (x : ItemId) (cause : WasteCause) (q : Nat) : State :=
  s.raise .waste (Word.ofCount x.val) [Word.ofCount cause.code, Word.ofCount q]

/-- A WASTE notice for a slot's item; a slot with no item has none to name. -/
def State.wasteOf (s : State) (t : SlotId) (cause : WasteCause) (q : Nat) : State :=
  match (s.batch t).item with
  | none => s
  | some x => s.waste x cause q

/-- A day-clock value so many seconds from now. -/
def State.clockIn (s : State) (seconds : Nat) : Word := s.exu.dayClock + BitVec.ofNat 32 (seconds * 1000)

/-- R79: units taken from the oldest lot first; a lot brought to 0 is removed. -/
def takeUnits : Nat → List Lot → List Lot
  | _, [] => []
  | q, l :: ls => if q = 0 then l :: ls else if l.count ≤ q then takeUnits (q - l.count) ls else { l with count := l.count - q } :: ls

/-- R79: a draw. False: refused whole, no lot changed. -/
def warmerDraw (t : SlotId) (q : Nat) (s : State) : State × Bool × Option Nat :=
  let b := s.batch t
  if b.ready < q then (s, false, none)
  else
    let r := lowTrigger t b.ready (s.setBatch t { b with lots := takeUnits q b.lots })
    (r.1, true, r.2)

/-- R80 steps 2 and 3: `added` units enter a warmer: a new lot at the tail, or, with 4 lots, into the newest. -/
def addLot (lots : List Lot) (added : Nat) (expiry : Word) : List Lot :=
  if added = 0 then lots
  else if lots.length < Config.lotsPerSlot then lots ++ [{ count := added, expiry := expiry }]
  else lots.modify (lots.length - 1) (fun l => { count := l.count + added, expiry := expiry })

/-- R80: a batch bump's food enters the warmer and the slot's outstanding ticket is cleared; then the low test of R88. -/
def batchBumped (t : SlotId) (q : Nat) (s : State) : State × Option Nat :=
  let b := s.batch t
  let added := min q b.room
  let s1 := s.setBatch t { b with lots := addLot b.lots added (s.clockIn b.life), outstanding := none }
  let s2 := if added < q then s1.wasteOf t .overfill (q - added) else s1
  lowTest t s2

/-- R81: the lots after a return of `added` units: into the newest lot, its expiry kept, or a new lot where there is none. -/
def returnLot (lots : List Lot) (added : Nat) (expiry : Word) : List Lot :=
  if added = 0 then lots
  else if lots.isEmpty then [{ count := added, expiry := expiry }]
  else lots.modify (lots.length - 1) (fun l => { l with count := l.count + added })

/-- R81: a void return. -/
def voidReturned (x : ItemId) (slot : Option SlotId) (q : Nat) (s : State) : State :=
  match slot with
  | none => s.waste x .returnOverfill q
  | some t =>
    let b := s.batch t
    let added := min q b.room
    let s1 := s.setBatch t { b with lots := returnLot b.lots added (s.clockIn b.life) }
    if added < q then s1.waste x .returnOverfill (q - added) else s1

/-- The place in the list of the lot that expires first: its expiry the nearest, the oldest lot among equals. -/
def firstToExpire (s : State) : List Lot → Option (Nat × Lot)
  | [] => none
  | l :: ls =>
    match firstToExpire s ls with
    | none => some (0, l)
    | some (i, m) => if (m.expiry - s.exu.dayClock).toInt < (l.expiry - s.exu.dayClock).toInt then some (i + 1, m) else some (0, l)

/-- R82: the lot at a place of a slot's list expires. -/
def lotExpired (t : SlotId) (i : Nat) (l : Lot) (s : State) : State × Option Nat :=
  let b := s.batch t
  lowTrigger t b.ready ((s.setBatch t { b with lots := b.lots.eraseIdx i }).wasteOf t .expired l.count)

/-! ### Reset and day close of the slots (R91, R92) -/

/-- R91: a slot's timers at soft reset and CLOSE_DAY: a PACED slot starts a full cycle, every other timer is IDLE. -/
def reloadSlot (s : State) (t : SlotId) : State :=
  let b := s.batch t
  if b.mode = .paced then
    let e := intervalAt b.interval .normal
    s.setBatch t { b with batchTimer := loadTimer s t (e * 1000), cycle := e, pendingInterval := none, leadTimer := .idle }
  else s.setBatch t { b with batchTimer := .idle, leadTimer := .idle }

/-- R91, R92: the level factors become NORMAL, the timers are set, and the gates are tested. -/
def reloadSlots (s : State) : State :=
  gateTestAll ((List.finRange 32).foldl reloadSlot { s with isu := { s.isu with levels := [] } })

/-- R91: one slot's lots emptied, and its outstanding ticket cleared. -/
def clearSlotAtReset (s : State) (t : SlotId) : State :=
  s.setBatch t { s.batch t with lots := [], outstanding := none }

/-- R91: soft reset at ISU. -/
def isuSoftReset (s : State) : State :=
  let items := Table.mapRecords {} (fun i => { i with reserved := 0 }) s.isu.items
  let s1 := { s with isu := { s.isu with items := items } }
  reloadSlots ((List.finRange 32).foldl clearSlotAtReset s1)

/-- R92: every lot of a slot is removed, oldest first, with a WASTE notice for each. -/
def wasteLots (s : State) (t : SlotId) : State :=
  let b := s.batch t
  (b.lots.foldl (fun s1 l => s1.wasteOf t .dayClose l.count) s).setBatch t { b with lots := [] }

/-- R92: the day close at ISU. The slots are taken from 0 to 31, and the lots of each oldest first: R92 gives no order among the
slots (DESIGN CHOICE, log entry 50). -/
def dayCloseSlots (s : State) : State := reloadSlots ((List.finRange 32).foldl wasteLots s)

/-! ### Hand-overs that reach ISU before an ask (R1) -/

/-- What ISU does with a hand-over from the Ticket Router or the Check Store, and the batch it orders, for which the router must then
be asked. -/
def isuTakes (c : Instr) (s : State) : State × List (SlotId × Nat) :=
  match c with
  | .batchBump t q => let r := batchBumped t q s; (r.1, r.2.toList.map (fun n => (t, n)))
  | .batchCancel t =>
    let r := lowTest t (s.setBatch t { s.batch t with outstanding := none })
    (r.1, r.2.toList.map (fun n => (t, n)))
  | .voidReturn x slot q => (voidReturned x slot q s, [])
  | .gateTest => (gateTestAll s, [])
  | .isuDayClose => (dayCloseSlots s, [])
  | _ => (s, [])

/-- R1: a block asks ISU: what it has handed to ISU before reaches ISU before the ask does, in the order made. Answers the batches
that these hand-overs order. -/
def deliverToIsu (sender : Block) (s : State) : State × List (SlotId × Nat) :=
  (s.waitingFor sender .isu).foldl
    (fun r c => let u := isuTakes c r.1; (u.1, r.2 ++ u.2))
    ({ s with handovers := s.handovers.filter (fun c => decide (pathOf c ≠ some (sender, .isu))) }, [])

/-- R1: ISU as a stock ask of the Check Store finds it. -/
def storeAsks (s : State) : State := (deliverToIsu .cks s).1

end Sys2Proof.Machine
end

