-- ==== Sys2Proof/Machine/Layouts.lean ====
section
/-! DEFINITION. The byte layouts that software and the heads see (R139, R201, R206, R207, R209): station frames, the notice page,
the record of a check and the records of a station. -/

namespace Sys2Proof

/-! ### Station frames (R139, R209) -/

/-- R209: the code of a frame's kind. -/
def Frame.kindCode : Frame → Byte
  | .showTicket .. => 0x10
  | .clearSlot _ => 0x11
  | .clearAll => 0x12
  | .mark .. => 0x13
  | .probe => 0x14
  | .status _ => 0x20

/-- R209: the quantity field: the quantity in bits 0..14, the void mark in bit 15. -/
def ShowEntry.quantityField (e : ShowEntry) : Nat := e.quantity % 32768 + if e.void then 32768 else 0

/-- R209: the void marks as bits, entry 0 lowest. -/
def voidBits : List Bool → Nat
  | [] => 0
  | v :: l => (if v then 1 else 0) + 2 * voidBits l

/-- R201: the two bytes of a tag. -/
def Tag.bytes (t : Tag) : List Byte := [t.toWord.extractLsb' 0 8, t.toWord.extractLsb' 8 8]

end Sys2Proof

namespace Sys2Proof.Machine

/-- R209: the body of a frame. -/
def frameBody : Frame → List Byte
  | .showTicket slot tag display cls late entries =>
    [BitVec.ofNat 8 slot] ++ tag.bytes ++ halfBytes display ++
      [BitVec.ofNat 8 cls.rank, boolByte late, BitVec.ofNat 8 entries.length] ++
      entries.flatMap (fun e => halfBytes e.item ++ halfBytes e.quantityField)
  | .clearSlot slot => [BitVec.ofNat 8 slot]
  | .clearAll => []
  | .mark slot tag late voids =>
    [BitVec.ofNat 8 slot] ++ tag.bytes ++ [boolByte late, BitVec.ofNat 8 voids.length] ++ halfBytes (voidBits voids)
  | .probe => []
  | .status code => [code.byte]

/-- The sum of bytes modulo 256. -/
def byteSum (l : List Byte) : Byte := l.foldl (· + ·) 0

/-- R139: the check byte: kind, length, body and check byte add up to 0 modulo 256. -/
def checkByte (kind : Byte) (body : List Byte) : Byte := 0 - byteSum (kind :: BitVec.ofNat 8 body.length :: body)

/-- R139: a frame as it goes on the line: lead byte, kind, length, body, check byte. -/
def frameBytes (f : Frame) : List Byte :=
  [0xC3, f.kindCode, BitVec.ofNat 8 (frameBody f).length] ++ frameBody f ++ [checkByte f.kindCode (frameBody f)]

/-! ### The notice page (R206) -/

/-- The bytes of a page's entry: kind code, three zeros, subject, time, and five value words, 0 beyond those the notice has. -/
def noticeEntryBytes (e : NoticeEntry) : List Byte :=
  [BitVec.ofNat 8 e.notice.kind.code, 0, 0, 0] ++ wordBytes e.notice.subject ++ wordBytes e.time ++
    wordsBytes ((e.notice.values ++ [0, 0, 0, 0, 0]).take 5)

/-- The page header but for its first two bytes, the sequence, which are written last: flags, entry count, day clock, pace
levels, link states and zeros, from byte 2. -/
def pageHeaderRest (s : State) (n : Nat) : List Byte :=
  [s.pageFlags, BitVec.ofNat 8 n] ++ wordBytes s.exu.dayClock ++
    (List.finRange 16).map (fun st => BitVec.ofNat 8 (s.pace st).level.code) ++
    (List.finRange 24).map (fun st => BitVec.ofNat 8 (s.link st).state.code) ++
    List.replicate 16 0

/-! ### The record of a check (R207) -/

/-- R207: the record's length in bytes. -/
def checkRecordLength (c : Check) : Nat :=
  64 + 32 * c.lines.length + 44 + 40 * c.weights.length + 32 * c.tenders.length

/-- R207: the weights of payers 0..7, four bits each, payer 0 lowest; a payer that the plan has not gets 0 (DESIGN CHOICE, log entry
64). -/
def weightNibbles : List Nat → Nat
  | [] => 0
  | w :: l => w % 16 + 16 * weightNibbles l

/-- The header of a check's record. An absent close time is the word of an absent value (R201), and the completeness
mark's byte is COMPLETE 0, INCOMPLETE 1, the order in which R34 lists them (DEDUCED, log entry 74). -/
def checkHeader (h : Handle) (c : Check) : List Byte :=
  wordsBytes [Word.ofCount (checkRecordLength c), h.toWord] ++
    [BitVec.ofNat 8 c.stand.val, BitVec.ofNat 8 c.state.code, BitVec.ofNat 8 c.priority.rank, countByte c.holder] ++
    [BitVec.ofNat 8 c.lines.length, BitVec.ofNat 8 c.weights.length, BitVec.ofNat 8 c.tenders.length,
      boolByte (!c.due.complete)] ++
    wordsBytes ([0, 1, 2, 3].map (fun k => Word.ofCount (c.rates.getD k 0))) ++
    wordsBytes [Word.ofCount c.levy, Word.ofCount c.increment, Word.ofCount c.ticketsFired, Word.ofCount c.ticketsOut,
      boolWord c.orderReady ||| (boolWord c.closeTime.isSome <<< 1), c.closeTime.getD Word.absent,
      Word.ofCount (weightNibbles c.weights), 0]

/-- A line's flags byte. -/
def lineFlags (l : Line) : Byte :=
  boolByte l.restricted ||| (boolByte l.stockMark <<< 1) ||| (boolByte l.void <<< 2) ||| (boolByte l.comp <<< 3) |||
    (boolByte l.drawn <<< 4)

/-- R207: the four deltas, 16 bits each, 0 beyond those the line has (DESIGN CHOICE, log entry 67). -/
def deltaBytes (l : Line) : List Byte :=
  ((l.deltas ++ [0, 0, 0, 0]).take 4).flatMap (fun d => halfBytes (BitVec.ofInt 16 d).toNat)

/-- A line record of 32 bytes. -/
def lineBytes (l : Line) : List Byte :=
  halfBytes l.item.val ++ [BitVec.ofNat 8 l.quantity, BitVec.ofNat 8 l.taxClass.val] ++ wordBytes (Word.ofCount l.price) ++
    [BitVec.ofNat 8 l.deltas.length, lineFlags l] ++ halfBytes l.share.toNat ++ deltaBytes l ++
    [BitVec.ofNat 8 l.mode.code, BitVec.ofNat 8 l.fire.code] ++ halfBytes l.mode.operand ++
    wordBytes (tagWord l.ticket) ++ [0, 0, 0, 0]

/-- The check figures in 44 bytes. -/
def figureBytes (d : DueTable) : List Byte :=
  wordsBytes ((d.net :: [0, 1, 2, 3].map (fun k => d.classNets.getD k 0) ++ [0, 1, 2, 3].map (fun k => d.classTaxes.getD k 0) ++
    [d.levy, d.total]).map Word.ofCount)

/-- A payer row of 40 bytes. -/
def payerBytes (r : PayerRow) : List Byte :=
  wordsBytes ((r.net :: [0, 1, 2, 3].map (fun k => r.taxes.getD k 0) ++
    [r.levy, r.due, r.applied, r.remaining, if r.paid then 1 else 0]).map Word.ofCount)

/-- A tender record of 32 bytes. -/
def tenderBytes (t : Tender) : List Byte :=
  [BitVec.ofNat 8 t.payer, BitVec.ofNat 8 t.kind.code, boolByte t.reversed, 0] ++
    wordsBytes [Word.ofCount t.offered, Word.ofCount t.applied, Word.ofCount t.change, Word.ofSigned t.adjustment,
      Word.ofCount t.forfeit, t.reference, 0]

/-- R207: a check's record. -/
def checkRecord (h : Handle) (c : Check) : List Byte :=
  checkHeader h c ++ c.lines.flatMap lineBytes ++ figureBytes c.due ++ c.due.rows.flatMap payerBytes ++
    c.tenders.flatMap tenderBytes

/-! ### The records of a station (R207) -/

/-- An entry of a ticket record, 12 bytes. -/
def entryBytes (e : Entry) : List Byte :=
  (match e.ref with
    | .line r => wordBytes r.check.toWord ++ [BitVec.ofNat 8 r.line]
    | .slot t => wordBytes Word.absent ++ [BitVec.ofNat 8 t.val]) ++
    [boolByte e.void] ++ halfBytes e.item.val ++ halfBytes e.quantity ++ [0, 0]

/-- The tag, kind, stand, handle and display number of a ticket record. -/
def ticketNameBytes (tag : Tag) (t : Ticket) : List Byte :=
  match t.kind with
  | .order stand h display => tag.bytes ++ [0, BitVec.ofNat 8 stand.val] ++ wordBytes h.toWord ++ halfBytes display
  | .batch _ => tag.bytes ++ [1, Byte.absent] ++ wordBytes Word.absent ++ halfBytes 0

/-- A ticket record of 32 + 12n bytes. -/
def ticketBytes (tag : Tag) (t : Ticket) : List Byte :=
  ticketNameBytes tag t ++
    [BitVec.ofNat 8 t.cls.rank, BitVec.ofNat 8 t.state.code, boolByte t.late, countByte t.slot, BitVec.ofNat 8 t.entries.length, 0] ++
    wordBytes (t.shownTime.getD 0) ++ wordBytes t.fireTime ++ wordBytes (tagWord t.continuedFrom) ++ [0, 0, 0, 0] ++
    t.entries.flatMap entryBytes

/-- The station header of 16 bytes. -/
def stationHeader (s : State) (st : StationId) : List Byte :=
  let l := s.link st
  let q := s.queues st
  [BitVec.ofNat 8 st.val, BitVec.ofNat 8 l.state.code, BitVec.ofNat 8 l.count, countByte (l.fallback.map Fin.val),
    BitVec.ofNat 8 q.shown.length, BitVec.ofNat 8 q.bumped.length] ++ halfBytes q.waiting.length ++ List.replicate 8 0

end Sys2Proof.Machine
end

