-- ==== Sys2Proof/Machine/Checks.lean ====
section
/-! DEFINITION. The Check Store's requests (spec/01_stands_tills_and_checks.md, R33, R44, R102): stands and tills, holding, lines,
reading, reopening, export and day close, the split plan, QUOTE and FIRE. -/

namespace Sys2Proof.Machine

/-! ### Tests in the order of R7 -/

/-- R7: the requesting till of a request that must take holding: an open till 1..96, with its stand. None: refused RANGE. -/
def State.requestingTill (s : State) (r : Requester) : Option (Nat × StandId) :=
  let n := r.till.toNat
  if 1 ≤ n ∧ n ≤ Config.tills ∧ (s.till n).isOpen then (s.till n).stand.map (fun st => (n, st)) else none

/-- The stand of a till, where it has one: the back office and a number that is no till's have none. -/
def State.tillStand (s : State) (till : Byte) : Option StandId :=
  if 1 ≤ till.toNat ∧ till.toNat ≤ Config.tills then (s.till till.toNat).stand else none

/-- R7 step 3, R8: the check that a handle word names, or the refusal RANGE or NO_CHECK. -/
def withCheck (w : Word) (s : State) (k : Handle → Check → Out) : Out :=
  match handleOf w with
  | none => refuse .range s
  | some h =>
    match s.check h with
    | none => refuse .noCheck s
    | some c => k h c

/-- R17: a refusal HELD writes the holding till into body word 0. -/
def refuseHeld (till : Nat) (s : State) : Out := .next (s.answerWith (.refused .held (some (Word.ofCount till))))

/-- R19: the holding test. -/
def withHolding (r : Requester) (c : Check) (s : State) (k : Out) : Out :=
  match c.holder with
  | none => refuse .notHeld s
  | some t => if t = r.till.toNat then k else refuseHeld t s

/-- A CLOSED or EXPORTED check. -/
def Check.ended (c : Check) : Bool := decide (c.state = .closed) || decide (c.state = .exported)

/-- R7 steps 3 to 5: the check that a request changes, named by its holder. -/
def withHeldCheck (r : Requester) (w : Word) (s : State) (k : Handle → Check → Out) : Out :=
  withCheck w s (fun h c => if c.ended then refuse .checkClosed s else withHolding r c s (k h c))

/-- R22 steps 1 to 6: the live line that a request changes, on an OPEN check. -/
def withOpenLine (r : Requester) (w line : Word) (s : State) (k : Handle → Check → Nat → Line → Out) : Out :=
  match within 0 39 line with
  | none => refuse .range s
  | some i =>
    withHeldCheck r w s (fun h c =>
      if c.state = .paying then refuse .splitFrozen s
      else
        match c.lines[i]? with
        | none => refuse .range s
        | some l => if l.void then refuse .range s else k h c i l)

/-! ### Holding (R14) -/

/-- A check joins the tail of a till's held list. -/
def State.hold (s : State) (n : Nat) (h : Handle) : State :=
  s.setTill n { s.till n with held := (s.till n).held ++ [h] }

/-- A check leaves its holder's held list; the others keep their order. -/
def State.unhold (s : State) (holder : Option Nat) (h : Handle) : State :=
  match holder with
  | none => s
  | some n => s.setTill n { s.till n with held := (s.till n).held.erase h }

/-- A till's held list has no room. -/
def State.tillFull (s : State) (n : Nat) : Bool := decide (Config.heldPerTill ≤ (s.till n).held.length)

/-! ### Slots and lines (R9, R12) -/

/-- R9: the lowest-numbered free slot. -/
def freeCheckSlot (s : State) : Option (BitVec 10) :=
  (firstFrom (fun n => (s.checkSlot (BitVec.ofNat 10 n)).check.isNone) Config.checkSlots 0).map (BitVec.ofNat 10)

/-- R9, R114: a check's slot is freed, and the router is told. -/
def freeCheck (s : State) (h : Handle) : State := (s.freeSlot h).hand (.slotFreed h)

/-- R9 steps 1 to 4: the oldest exported check is reclaimed; its slot is answered. -/
def reclaimOldest (s : State) : Option (State × BitVec 10) :=
  match s.cks.exportedList with
  | [] => none
  | h :: rest => some (freeCheck { s with cks := { s.cks with exportedList := rest } } h, h.slot)

/-- R9: the slot that a new check takes. -/
def claimSlot (s : State) : Option (State × BitVec 10) :=
  match freeCheckSlot s with
  | some k => some (s, k)
  | none => reclaimOldest s

/-- R20 test 9: a line record is free, or some check on the exported list holds one. -/
def State.lineRecordToBeHad (s : State) : Bool :=
  decide (s.linesInUse < Config.lineRecords) ||
    s.cks.exportedList.any (fun h =>
      match s.check h with
      | none => false
      | some c => !c.lines.isEmpty)

/-- R21 step 1: the oldest exported checks are reclaimed until a line record is free, at most `fuel` of them. -/
def freeLineRecord : Nat → State → State
  | 0, s => s
  | fuel + 1, s =>
    if s.linesInUse < Config.lineRecords then s
    else
      match reclaimOldest s with
      | none => s
      | some r => freeLineRecord fuel r.1

/-! ### Opening and holding (R15 to R18) -/

/-- R15: the check that OPEN_CHECK builds. -/
def newCheck (s : State) (stand : StandId) (till : Nat) (p : TicketClass) : Check :=
  let st := s.stand stand
  { stand := stand, holder := some till, priority := p, rates := st.rates, levy := st.levy, increment := st.increment,
    weights := [1], lines := [], due := dueTable [] [1] st.rates st.levy, tenders := [], ticketsOut := 0, ticketsFired := 0,
    orderReady := false, closeTime := none }

/-- OPEN_CHECK (R15). -/
def execOpenCheck (r : Requester) (priority : Word) (s0 : State) : Out :=
  let s := s0.taken (.openCheck r priority)
  match classOf priority, s.requestingTill r with
  | some p, some (n, stand) =>
    if (s.stand stand).state ≠ .opened then refuse .standClosed s
    else if s.tillFull n then refuse .tillFull s
    else
      match claimSlot s with
      | none => refuse .noSlot s
      | some (s1, k) =>
        let h : Handle := { slot := k, gen := (s1.checkSlot k).gen }
        finish [h.toWord] (((s1.setCheck h (newCheck s1 stand n p)).hold n h).speDone)
  | _, _ => refuse .range s

/-- PARK (R16). -/
def execPark (r : Requester) (handle : Word) (s0 : State) : Out :=
  let s := s0.taken (.park r handle)
  withHeldCheck r handle s (fun h c => finish [] ((s.setCheck h { c with holder := none }).unhold c.holder h))

/-- R17, R18: a check is taken by a till, from its former holder if it has one. -/
def takeHolding (n : Nat) (h : Handle) (c : Check) (s : State) : State :=
  ((s.unhold c.holder h).setCheck h { c with holder := some n }).hold n h

/-- PICK_UP (R17). -/
def execPickUp (r : Requester) (handle : Word) (s0 : State) : Out :=
  let s := s0.taken (.pickUp r handle)
  match s.requestingTill r with
  | none => refuse .range s
  | some (n, stand) =>
    withCheck handle s (fun h c =>
      if c.ended then refuse .checkClosed s
      else if c.stand ≠ stand then refuse .wrongStand s
      else if c.holder = some n then finish [] s
      else
        match c.holder with
        | some t => refuseHeld t s
        | none => if s.tillFull n then refuse .tillFull s else finish [] (takeHolding n h c s))

/-- R18 step 3: CHECK_TAKEN, where another till held the check. -/
def raiseTaken (h : Handle) (former : Option Nat) (n : Nat) (s : State) : State :=
  match former with
  | none => s
  | some t => s.raise .checkTaken h.toWord [Word.ofCount t, Word.ofCount n]

/-- FORCE_PICK_UP (R18). -/
def execForcePickUp (r : Requester) (handle : Word) (s0 : State) : Out :=
  let s := s0.taken (.forcePickUp r handle)
  if r.authority ≠ .supervisor then refuse .authority s
  else
    match s.requestingTill r with
    | none => refuse .range s
    | some (n, stand) =>
      withCheck handle s (fun h c =>
        if c.ended then refuse .checkClosed s
        else if c.stand ≠ stand then refuse .wrongStand s
        else if c.holder = some n then finish [] s
        else if s.tillFull n then refuse .tillFull s
        else finish [] (raiseTaken h c.holder n (takeHolding n h c s)))

/-! ### Lines (R20 to R25) -/

/-- R20: the modifiers: as many deltas as the count gives, each in its range. -/
def deltasOf (count : Word) (ds : List Word) : Option (List Int) :=
  match within 0 4 count with
  | none => none
  | some n => allSome ((ds.take n).map (withinSigned (-9999) 9999))

/-- R21 step 2: the line that ADD_LINE enters. -/
def newLine (x : ItemId) (i : Item) (q : Nat) (mode : FireMode) (ds : List Int) : Line :=
  { item := x, quantity := q, price := i.price, deltas := ds, taxClass := i.taxClass, restricted := i.restricted,
    stockMark := i.tracked, mode := mode }

/-- R21 step 4: in an ON_ENTRY stand an IMMEDIATE line is fired, and a DELAYED line sent to the delay list. -/
def handEntered (h : Handle) (stand : StandId) (mode : FireMode) (i : Nat) (s : State) : State :=
  if (s.stand stand).policy = .onEntry then
    match mode with
    | .immediate => s.hand (.firing h [i] .entry)
    | .delayed d => s.hand (.delayListJoin { check := h, line := i } (s.clockIn d))
    | .onCall _ => s
  else s

/-- R13: the reserve ask of ADD_LINE, made for a stock-tracked item. None: refused OUT_OF_STOCK. -/
def reserveForLine (x : ItemId) (q : Nat) (s : State) : Option State :=
  if (s.item x).tracked then reserveAsk x q s else some s

/-- R21: an ADD_LINE that has passed its tests, once the reserve is made. -/
def enterLine (h : Handle) (c : Check) (l : Line) (s : State) : State :=
  let s1 := freeLineRecord s.cks.exportedList.length s
  let s2 := (s1.setCheck h ({ c with lines := c.lines ++ [l] } : Check).recomputed).speDone
  handEntered h c.stand l.mode c.lines.length s2

/-- ADD_LINE (R20, R21). Where the reserve is asked for, what CKS has handed to ISU before reaches ISU first (R1). -/
def execAddLine (r : Requester) (handle item quantity fireMode modCount d0 d1 d2 d3 : Word) (s0 : State) : Out :=
  let s := s0.taken (.addLine r handle item quantity fireMode modCount d0 d1 d2 d3)
  match itemOf item, within 1 99 quantity, fireModeOf fireMode, deltasOf modCount [d0, d1, d2, d3] with
  | some x, some q, some mode, some ds =>
    withHeldCheck r handle s (fun h c =>
      let i := s.item x
      if c.state = .paying then refuse .splitFrozen s
      else if !i.isDefined then refuse .noItem s
      else if i.restricted ∧ (s.stand c.stand).cutOff then refuse .cutOff s
      else if Config.linesPerCheck ≤ c.lines.length then refuse .lineFull s
      else if !s.lineRecordToBeHad then refuse .poolFull s
      else
        let s1 := if i.tracked then storeAsks s else s
        match reserveForLine x q s1 with
        | none => refuse .outOfStock s1
        | some s2 => finish [Word.ofCount c.lines.length] (enterLine h c (newLine x i q mode ds) s2))
  | _, _, _, _ => refuse .range s

/-- R36: line `i` of a check changed, and the due table computed afresh. -/
def changeLine (h : Handle) (c : Check) (i : Nat) (l : Line) (s : State) : State :=
  (s.setCheck h ({ c with lines := c.lines.set i l } : Check).recomputed).speDone

/-- R22 step 7: the fire states from which a void needs SUPERVISOR. -/
def hasFired (f : FireState) : Bool := decide (f = .fired) || decide (f = .served) || decide (f = .unsent)

/-- R22 step 2: the release ask of a void line with the stock mark. -/
def releaseForLine (l : Line) (s : State) : State := if l.stockMark then releaseAsk l.item l.quantity (storeAsks s) else s

/-- R22, R106: how a line of a check of a stand stands when its void is taken. -/
def Line.voided (stand : StandId) (l : Line) : VoidedLine :=
  { was := l.fire, stand := stand, ticket := l.ticket, drawn := l.drawn }

/-- VOID_LINE (R22). -/
def execVoidLine (r : Requester) (handle line : Word) (s0 : State) : Out :=
  let s := s0.taken (.voidLine r handle line)
  withOpenLine r handle line s (fun h c i l =>
    if hasFired l.fire ∧ r.authority ≠ .supervisor then refuse .authority s
    else
      finish []
        ((releaseForLine l (changeLine h c i { l with void := true } s)).hand
          (.kitchenVoid { check := h, line := i } l.item l.quantity (l.voided c.stand))))

/-- COMP_LINE (R24). -/
def execCompLine (r : Requester) (handle line : Word) (s0 : State) : Out :=
  let s := s0.taken (.compLine r handle line)
  if r.authority ≠ .supervisor then refuse .authority s
  else
    withOpenLine r handle line s (fun h c i l =>
      if l.comp then finish [] s else finish [] (changeLine h c i { l with comp := true } s))

/-- R25, R33: a mask names a payer at or above the payer count. -/
def Share.beyond (count : Nat) : Share → Bool
  | .payers m => (List.range 8).any (fun p => m.getLsbD p && decide (count ≤ p))
  | _ => false

/-- SET_SHARE (R25). -/
def execSetShare (r : Requester) (handle line mask : Word) (s0 : State) : Out :=
  let s := s0.taken (.setShare r handle line mask)
  match shareOf mask with
  | none => refuse .range s
  | some m =>
    withOpenLine r handle line s (fun h c i l =>
      if m.beyond c.weights.length then refuse .badMask s
      else finish [] (changeLine h c i { l with share := m } s))

/-! ### Reading (R26) -/

/-- READ_CHECK (R26). -/
def execReadCheck (r : Requester) (handle offset length : Word) (s0 : State) : Out :=
  let s := s0.taken (.readCheck r handle offset length)
  if !s.bufferOk offset length then refuse .range s
  else
    withCheck handle s (fun h c =>
      if length.toNat < checkRecordLength c then refuse .noRoom s
      else finish [Word.ofCount (checkRecordLength c)] (s.writeBytes offset.toNat (checkRecord h c)))

/-! ### Reopening and export (R27 to R29) -/

/-- R48: a tender is live while its reversed mark is clear. -/
def Check.hasLiveTender (c : Check) : Bool := c.tenders.any (fun t => !t.reversed)

/-- R28 step 3, R72: the uncommit ask for a live line with the stock mark; where neither count changes the mark is cleared. -/
def uncommitLine (h : Handle) (s : State) (i : Nat) : State :=
  match s.line { check := h, line := i } with
  | none => s
  | some (_, l) =>
    if l.live && l.stockMark then
      match uncommitAsk l.item l.quantity (storeAsks s) with
      | (s1, true) => s1
      | (s1, false) => s1.mapLine { check := h, line := i } (fun l => { l with stockMark := false })
    else s

/-- R28: a REOPEN that has passed its tests. R28 gives the uncommit asks no order: list order (DESIGN CHOICE, log entry 66). -/
def reopenCheck (n : Nat) (h : Handle) (c : Check) (s : State) : State :=
  let s1 := { s with cks := { s.cks with closedList := s.cks.closedList.erase h } }
  let s2 := (s1.setCheck h
    { c with closeTime := none, state := if c.hasLiveTender then .paying else .opened, holder := some n }).hold n h
  let s3 := (List.range c.lines.length).foldl (uncommitLine h) s2
  s3.mapCheck h (fun c => { c with orderReady := false })

/-- REOPEN (R28). -/
def execReopen (r : Requester) (handle : Word) (s0 : State) : Out :=
  let s := s0.taken (.reopen r handle)
  if r.authority ≠ .supervisor then refuse .authority s
  else
    match s.requestingTill r with
    | none => refuse .range s
    | some (n, stand) =>
      withCheck handle s (fun h c =>
        if c.state = .exported then refuse .exported s
        else if c.state ≠ .closed then refuse .notClosed s
        else if c.stand ≠ stand then refuse .wrongStand s
        else if (s.stand c.stand).state = .closed then refuse .standClosed s
        else if s.tillFull n then refuse .tillFull s
        else finish [] (reopenCheck n h c s))

/-- R29: the record of a check as EXPORT_CLOSED writes it: in state EXPORTED. -/
def exportRecord (h : Handle) (c : Check) : List Byte := checkRecord h { c with state := .exported }

/-- R29: the records that fit, oldest first: each check written, and its record. -/
def exportFit (s : State) : Nat → List Handle → List (Handle × List Byte)
  | _, [] => []
  | room, h :: l =>
    match s.check h with
    | none => []
    | some c =>
      if checkRecordLength c ≤ room then (h, exportRecord h c) :: exportFit s (room - checkRecordLength c) l else []

/-- R29: a check becomes EXPORTED: it leaves the closed list and joins the tail of the exported list. -/
def markExported (s : State) (h : Handle) : State :=
  let s1 := s.mapCheck h (fun c => { c with state := .exported })
  { s1 with cks := { s1.cks with closedList := s1.cks.closedList.erase h, exportedList := s1.cks.exportedList ++ [h] } }

/-- EXPORT_CLOSED (R29): every record is written before a check is marked (R187). -/
def execExportClosed (r : Requester) (offset length : Word) (s0 : State) : Out :=
  let s := s0.taken (.exportClosed r offset length)
  if !s.bufferOk offset length then refuse .range s
  else
    let written := exportFit s length.toNat s.cks.closedList
    let n := s.cks.closedList.length
    if n ≠ 0 ∧ written = [] then refuse .noRoom s
    else
      finish [Word.ofCount written.length, Word.ofCount (n - written.length)]
        ((written.map Prod.fst).foldl markExported (s.writeBytes offset.toNat (written.flatMap Prod.snd)))

/-! ### Stands, tills and the day (R3 to R6, R30) -/

/-- A stand has a check in one of the states given. -/
def standHas (s : State) (n : StandId) (p : CheckState → Bool) : Bool :=
  s.checks.any (fun e => decide (e.2.stand = n) && p e.2.state)

/-- SET_STAND (R3). A change of the route table is told to the gates of ISU (R89). -/
def execSetStand (r : Requester) (stand policy rate0 rate1 rate2 rate3 levy increment routesLo routesHi : Word) (s0 : State) :
    Out :=
  let s := s0.taken (.setStand r stand policy rate0 rate1 rate2 rate3 levy increment routesLo routesHi)
  if r.authority ≠ .supervisor then refuse .authority s
  else
    match standOf stand, policyOf policy, allSome ([rate0, rate1, rate2, rate3].map (within 0 2500)), within 0 2000 levy,
      incrementOf increment, routesOf routesLo routesHi with
    | some n, some p, some rates, some v, some inc, some routes =>
      let old := s.stand n
      if p ≠ old.policy ∧ standHas s n (fun c => decide (c ≠ .exported)) then refuse .standBusy s
      else
        let s1 := s.setStand n
          { old with configured := true, policy := p, rates := rates, levy := v, increment := inc, routes := routes }
        finish [] (if routes = old.routes then s1 else s1.hand .gateTest)
    | _, _, _, _, _, _ => refuse .range s

/-- SET_TILL (R6). -/
def execSetTill (r : Requester) (till stand closed : Word) (s0 : State) : Out :=
  let s := s0.taken (.setTill r till stand closed)
  if r.authority ≠ .supervisor then refuse .authority s
  else
    match within 1 Config.tills till, standOf stand, tillOpenOf closed with
    | some n, some st, some isOpen =>
      if !(s.stand st).configured then refuse .range s
      else if (s.till n).held ≠ [] ∧ (isOpen = false ∨ (s.till n).stand ≠ some st) then refuse .tillBusy s
      else finish [] (s.setTill n { s.till n with stand := some st, isOpen := isOpen })
    | _, _, _ => refuse .range s

/-- STAND_STATE (R4). A change of state is handed to ISU, which applies its gates (R89). -/
def execStandState (r : Requester) (stand target : Word) (s0 : State) : Out :=
  let s := s0.taken (.standState r stand target)
  if r.authority ≠ .supervisor then refuse .authority s
  else
    match standOf stand, standStateOf target with
    | some n, some t =>
      if !(s.stand n).configured then refuse .range s
      else if t = .closed ∧ standHas s n (fun c => decide (c = .opened) || decide (c = .paying)) then refuse .openChecks s
      else if t = (s.stand n).state then finish [] s
      else finish [] ((s.setStand n { s.stand n with state := t }).hand .gateTest)
    | _, _ => refuse .range s

/-- CUT_OFF (R5). -/
def execCutOff (r : Requester) (stand : Word) (s0 : State) : Out :=
  let s := s0.taken (.cutOff r stand)
  if r.authority ≠ .supervisor then refuse .authority s
  else
    match standOf stand with
    | none => refuse .range s
    | some n =>
      if !(s.stand n).configured then refuse .range s
      else finish [] (s.setStand n { s.stand n with cutOff := true })

/-- R30, R31: a stand at the start of a day: a configured one OPEN, the latch clear, the display numbers from 1. -/
def dayStand (v : Stand) : Stand :=
  { v with cutOff := false, nextDisplay := 1, state := if v.configured then .opened else .closed }

/-- Every stand at the start of a day. -/
def dayStands (s : State) : State := (List.finRange 16).foldl (fun s1 n => s1.setStand n (dayStand (s1.stand n))) s

/-- R30: what CLOSE_DAY does at CKS and at the day clock, and the day-close actions it hands over. R30 gives no order among the checks
freed: the oldest exported goes first (DESIGN CHOICE, log entry 59). The order of the three day closes: DESIGN CHOICE, log entry 46. -/
def closeDay (s : State) : State :=
  let s1 := s.cks.exportedList.foldl freeCheck s
  let s2 := dayStands { s1 with cks := { s1.cks with exportedList := [] } }
  s2.clockToZero.handAll [.isuDayClose, .tkrDayClose, .dmwDayClose]

/-- CLOSE_DAY (R30). -/
def execCloseDay (r : Requester) (s0 : State) : Out :=
  let s := s0.taken (.closeDay r)
  if r.authority ≠ .supervisor then refuse .authority s
  else if s.checks.any (fun e => decide (e.2.state = .opened) || decide (e.2.state = .paying)) then refuse .openChecks s
  else if s.cks.closedList ≠ [] then refuse .notExported s
  else finish [Word.ofCount s.cks.exportedList.length] (closeDay s)

/-! ### The split plan (R33) and QUOTE (R44) -/

/-- SET_SPLIT (R33). -/
def execSetSplit (r : Requester) (handle payers w0 w1 w2 w3 w4 w5 w6 w7 : Word) (s0 : State) : Out :=
  let s := s0.taken (.setSplit r handle payers w0 w1 w2 w3 w4 w5 w6 w7)
  match within 1 8 payers with
  | none => refuse .range s
  | some n =>
    match allSome (([w0, w1, w2, w3, w4, w5, w6, w7].take n).map (within 1 15)) with
    | none => refuse .range s
    | some weights =>
      withHeldCheck r handle s (fun h c =>
        if c.state = .paying then refuse .splitFrozen s
        else if c.lines.any (fun l => l.live && l.share.beyond n) then refuse .badMask s
        else finish [] ((s.setCheck h ({ c with weights := weights } : Check).recomputed).speDone))

/-- R44: the result words of QUOTE. -/
def quoteWords (c : Check) : List Word :=
  [Word.ofCount c.due.total, Word.ofCount c.weights.length] ++
    (List.range 8).map (fun p => Word.ofCount ((c.due.rows[p]?).map PayerRow.due |>.getD 0)) ++ [0, 0]

/-- QUOTE (R44). -/
def execQuote (r : Requester) (handle : Word) (s0 : State) : Out :=
  let s := s0.taken (.quote r handle)
  withCheck handle s (fun _ c => if !c.due.complete then refuse .unassigned s else finish (quoteWords c) s)

/-! ### FIRE (R102) -/

/-- The places of the lines of a check that satisfy a test, in list order. -/
def linesWhere (p : Line → Bool) (ls : List Line) : List Nat :=
  (ls.zipIdx.filter (fun e => p e.1)).map Prod.snd

/-- R102: a live HELD ON_CALL line of the group. -/
def Line.onCallOf (group : Nat) (l : Line) : Bool := l.live && decide (l.mode = .onCall group) && decide (l.fire = .held)

/-- R102: the lines of a group are handed over as one firing; none, and nothing is. They stay HELD until the router takes the firing
(R23), so a second FIRE taken before that counts them and hands them over again, and the second firing passes them over (DEDUCED, log
entry 70). -/
def fireGroup (h : Handle) (c : Check) (group : Nat) (s : State) : Out :=
  let ls := linesWhere (Line.onCallOf group) c.lines
  finish [Word.ofCount ls.length] (if ls = [] then s else s.hand (.firing h ls .fire))

/-- FIRE (R102). -/
def execFire (r : Requester) (handle group : Word) (s0 : State) : Out :=
  let s := s0.taken (.fire r handle group)
  match within 1 3 group with
  | none => refuse .range s
  | some g =>
    withCheck handle s (fun h c =>
      if c.state = .exported then refuse .checkClosed s
      else if c.state = .closed then
        if r.till = 0 ∨ s.tillStand r.till = some c.stand then fireGroup h c g s else refuse .wrongStand s
      else
        withHolding r c s
          (if (s.stand c.stand).policy = .onSettle then refuse .notSettled s else fireGroup h c g s))

end Sys2Proof.Machine
end

