-- ==== Sys2Proof/Decode.lean ====
section
/-! DEFINITION. From bits to commands. The table of commands (spec/opcode_table.json) gives no row any bits, so no word of it
spells a command. What the part does decode is a write of the register window, which becomes the command of its register (R177, R203),
and a slip: the kind code of R204 and the body words become a request, with the till and the authority of the header (R181, R202).
Beside the slip's decoder stands its encoder: the kind and the body words of a request. -/

namespace Sys2Proof

/-- The command that a word spells by the bits of spec/opcode_table.json: none, since no row of the table has bits. -/
def decodeTableWord (_nbits _w : Nat) : Option Instr := none

/-! ### Writes of the register window -/

/-- R178, R203: a write of CONTROL: RUN in bit 0, the soft reset strobe in bit 1. The other bits are not named, and ignored (R201). -/
def controlWrite (value : Word) : Instr :=
  if value.getLsbD 1 then .softReset (value.getLsbD 0) else .run (value.getLsbD 0)

/-- R177, the table's last column: the command that a write of `width` bytes at an offset of the window is. A write of another width
than a whole aligned word is ignored, and so is one of ID, and one at 0x20 or above. -/
def registerWrite (offset width : Nat) (value : Word) : Instr :=
  if width ≠ 4 then .registerWriteIgnored offset width value
  else if offset = 0x04 then controlWrite value
  else if offset = 0x08 then .exchangeBaseLo value
  else if offset = 0x0C then .exchangeBaseHi value
  else if offset = 0x10 then .exchangeSize value
  else if offset = 0x14 then .post value
  else if offset = 0x18 then .notice value
  else if offset = 0x1C then .fault value
  else .registerWriteIgnored offset width value

/-! ### Slips -/

/-- R181, R201: the authority field of a slip; a value that is neither has none. -/
def authorityOf (b : Byte) : Option Authority :=
  if b = 0 then some .staff else if b = 1 then some .supervisor else none

/-- R201: the authority's encoding. -/
def Authority.code : Authority → Byte
  | .staff => 0
  | .supervisor => 1

/-- Body word `i` of a slip, 0..11. -/
abbrev Body := List Word

/-- A body word; a word beyond the body reads 0. -/
abbrev Body.at (b : Body) (i : Nat) : Word := b.getD i 0

/-- The requests of the codes 0x00 to 0x1F (R204). -/
def decodeCheckRequest (kind : Byte) (r : Requester) (b : Body) : Option Instr :=
  if kind = 0x00 then some (.nop r)
  else if kind = 0x10 then some (.openCheck r (b.at 0))
  else if kind = 0x11 then some (.park r (b.at 0))
  else if kind = 0x12 then some (.pickUp r (b.at 0))
  else if kind = 0x13 then some (.forcePickUp r (b.at 0))
  else if kind = 0x14 then
    some (.addLine r (b.at 0) (b.at 1) (b.at 2) (b.at 3) (b.at 4) (b.at 5) (b.at 6) (b.at 7) (b.at 8))
  else if kind = 0x15 then some (.voidLine r (b.at 0) (b.at 1))
  else if kind = 0x16 then some (.compLine r (b.at 0) (b.at 1))
  else if kind = 0x17 then some (.setShare r (b.at 0) (b.at 1) (b.at 2))
  else if kind = 0x18 then some (.readCheck r (b.at 0) (b.at 1) (b.at 2))
  else if kind = 0x19 then some (.reopen r (b.at 0))
  else if kind = 0x1A then some (.exportClosed r (b.at 0) (b.at 1))
  else if kind = 0x1B then
    some (.setStand r (b.at 0) (b.at 1) (b.at 2) (b.at 3) (b.at 4) (b.at 5) (b.at 6) (b.at 7) (b.at 8) (b.at 9))
  else if kind = 0x1C then some (.setTill r (b.at 0) (b.at 1) (b.at 2))
  else if kind = 0x1D then some (.standState r (b.at 0) (b.at 1))
  else if kind = 0x1E then some (.cutOff r (b.at 0))
  else if kind = 0x1F then some (.closeDay r)
  else none

/-- The requests of the codes 0x20 to 0x35 (R204). -/
def decodeMoneyStockRequest (kind : Byte) (r : Requester) (b : Body) : Option Instr :=
  if kind = 0x20 then
    some (.setSplit r (b.at 0) (b.at 1) (b.at 2) (b.at 3) (b.at 4) (b.at 5) (b.at 6) (b.at 7) (b.at 8) (b.at 9))
  else if kind = 0x21 then some (.quote r (b.at 0))
  else if kind = 0x28 then some (.tender r (b.at 0) (b.at 1) (b.at 2) (b.at 3) (b.at 4))
  else if kind = 0x29 then some (.voidTender r (b.at 0) (b.at 1))
  else if kind = 0x2A then some (.settle r (b.at 0))
  else if kind = 0x30 then
    some (.setItem r (b.at 0) (b.at 1) (b.at 2) (b.at 3) (b.at 4) (b.at 5) (b.at 6) (b.at 7) (b.at 8))
  else if kind = 0x31 then
    some (.setBatch r (b.at 0) (b.at 1) (b.at 2) (b.at 3) (b.at 4) (b.at 5) (b.at 6) (b.at 7) (b.at 8) (b.at 9))
  else if kind = 0x32 then some (.receiveStock r (b.at 0) (b.at 1))
  else if kind = 0x33 then some (.countStock r (b.at 0) (b.at 1))
  else if kind = 0x34 then some (.restartBatch r (b.at 0) (b.at 1))
  else if kind = 0x35 then some (.readItem r (b.at 0))
  else none

/-- The requests of the codes from 0x40 on (R204). -/
def decodeKitchenRequest (kind : Byte) (r : Requester) (b : Body) : Option Instr :=
  if kind = 0x40 then some (.fire r (b.at 0) (b.at 1))
  else if kind = 0x41 then some (.prioritize r (b.at 0) (b.at 1))
  else if kind = 0x42 then some (.recallTicket r (b.at 0))
  else if kind = 0x43 then some (.readStation r (b.at 0) (b.at 1) (b.at 2))
  else if kind = 0x48 then some (.setStation r (b.at 0) (b.at 1) (b.at 2) (b.at 3))
  else if kind = 0x50 then
    some (.setPace r (b.at 0) (b.at 1) (b.at 2) (b.at 3) (b.at 4) (b.at 5) (b.at 6) (b.at 7) (b.at 8) (b.at 9))
  else if kind = 0x51 then some (.readDemand r (b.at 0) (b.at 1))
  else if kind = 0x60 then some (.setNotices r (b.at 0) (b.at 1) (b.at 2))
  else if kind = 0x61 then some (.ackRestart r)
  else none

/-- R204: the request of a kind code, with its operands from the body; none outside the defined kinds (refused BAD_REQUEST). -/
def decodeRequest (kind : Byte) (r : Requester) (b : Body) : Option Instr :=
  if kind.toNat < 0x20 then decodeCheckRequest kind r b
  else if kind.toNat < 0x40 then decodeMoneyStockRequest kind r b
  else decodeKitchenRequest kind r b

/-- R204, R201: a request as a slip carries it: its kind code, its till and authority, and its operand words; none for a command
that is no request. -/
def encodeRequest : Instr → Option (Byte × Requester × Body)
  | .nop r => some (0x00, r, [])
  | .openCheck r p => some (0x10, r, [p])
  | .park r h => some (0x11, r, [h])
  | .pickUp r h => some (0x12, r, [h])
  | .forcePickUp r h => some (0x13, r, [h])
  | .addLine r h i q m n a b c d => some (0x14, r, [h, i, q, m, n, a, b, c, d])
  | .voidLine r h l => some (0x15, r, [h, l])
  | .compLine r h l => some (0x16, r, [h, l])
  | .setShare r h l m => some (0x17, r, [h, l, m])
  | .readCheck r h o n => some (0x18, r, [h, o, n])
  | .reopen r h => some (0x19, r, [h])
  | .exportClosed r o n => some (0x1A, r, [o, n])
  | .setStand r s p a b c d v i x y => some (0x1B, r, [s, p, a, b, c, d, v, i, x, y])
  | .setTill r t s c => some (0x1C, r, [t, s, c])
  | .standState r s t => some (0x1D, r, [s, t])
  | .cutOff r s => some (0x1E, r, [s])
  | .closeDay r => some (0x1F, r, [])
  | .setSplit r h n a b c d e f g i => some (0x20, r, [h, n, a, b, c, d, e, f, g, i])
  | .quote r h => some (0x21, r, [h])
  | .tender r h p k a x => some (0x28, r, [h, p, k, a, x])
  | .voidTender r h i => some (0x29, r, [h, i])
  | .settle r h => some (0x2A, r, [h])
  | .setItem r x d p t o e k m s => some (0x30, r, [x, d, p, t, o, e, k, m, s])
  | .setBatch r s x m h i b c l w d => some (0x31, r, [s, x, m, h, i, b, c, l, w, d])
  | .receiveStock r x q => some (0x32, r, [x, q])
  | .countStock r x n => some (0x33, r, [x, n])
  | .restartBatch r s n => some (0x34, r, [s, n])
  | .readItem r x => some (0x35, r, [x])
  | .fire r h g => some (0x40, r, [h, g])
  | .prioritize r t c => some (0x41, r, [t, c])
  | .recallTicket r t => some (0x42, r, [t])
  | .readStation r s o n => some (0x43, r, [s, o, n])
  | .setStation r s a f h => some (0x48, r, [s, a, f, h])
  | .setPace r x a b c d e f g h i => some (0x50, r, [x, a, b, c, d, e, f, g, h, i])
  | .readDemand r k n => some (0x51, r, [k, n])
  | .setNotices r m i k => some (0x60, r, [m, i, k])
  | .ackRestart r => some (0x61, r, [])
  | _ => none

end Sys2Proof
end

