-- ==== Sys2Proof/Machine/Exchange.lean ====
section
/-! DEFINITION. The Exchange Unit (spec/09_the_exchange_region.md and spec/10_notices.md): the register window, the chain list
and the walker, the notice buffer and the notice page. -/

namespace Sys2Proof.Machine

/-! ### The notice buffer (R192 to R194) -/

/-- R199: a kind is masked. -/
def State.masked (s : State) (k : NoticeKind) : Bool := s.ntc.mask.getLsbD k.code

/-- R192: a new notice meets a buffered one: both of one coalescing class, and about the same subject. -/
def meets (old new : Notice) : Bool :=
  decide (old.subject = new.subject) &&
    match new.kind with
    | .ticketState => decide (old.kind = .ticketState)
    | .itemOut | .itemBack => decide (old.kind = .itemOut) || decide (old.kind = .itemBack)
    | .waste => decide (old.kind = .waste) && decide (old.values[0]? = new.values[0]?)
    | .paceChange => decide (old.kind = .paceChange)
    | .stationState => decide (old.kind = .stationState)
    | _ => false

/-- R193: a WASTE's quantity after a merge, stopping at 4,294,967,295. -/
def addedQuantity (a b : Word) : Word := Word.ofCount (min 4294967295 (a.toNat + b.toNat))

/-- R193: an entry after a merge. -/
def merged (now : Word) (old : NoticeEntry) (new : Notice) : NoticeEntry :=
  match new.kind with
  | .waste =>
    { notice := { new with values := [new.values.getD 0 0, addedQuantity (old.notice.values.getD 1 0) (new.values.getD 1 0)] },
      time := now }
  | _ => { notice := new, time := now }

/-- R192 step 2, R193: the buffer with a notice merged into the first entry it meets; none where it meets none. -/
def mergeInto (now : Word) (new : Notice) : List NoticeEntry → Option (List NoticeEntry)
  | [] => none
  | e :: l => if meets e.notice new then some (merged now e new :: l) else (mergeInto now new l).map (fun r => e :: r)

/-! ### The notice page (R195 to R197) -/

/-- Bytes at the places that follow an offset. -/
def bytesAt (offset : Nat) (l : List Byte) : List (Nat × Byte) := l.zipIdx.map (fun e => (offset + e.2, e.1))

/-- R196 steps 1 and 2, R206: the bytes of a page, in the order the part writes them: the entries, the header from its flags on,
and the sequence last. -/
def pageImage (s : State) (es : List NoticeEntry) (seq : BitVec 16) : List (Nat × Byte) :=
  es.zipIdx.flatMap (fun e => bytesAt (64 + 32 * e.2) (noticeEntryBytes e.1)) ++
    bytesAt 2 (pageHeaderRest s es.length) ++ bytesAt 0 (halfBytes seq.toNat)

/-- Bytes written each at its own offset of the region. -/
def writeEach (s : State) (l : List (Nat × Byte)) : State := l.foldl (fun s1 e => s1.setByte (s1.busAddress e.1) e.2) s

/-- R196, R197: a page is opened, or its fill fails. -/
def openPage (s : State) : State :=
  let es := s.ntc.buffer.take Config.pageEntries
  let seq := s.ntc.sequence + 1
  let image := pageImage s es seq
  match s.ntc.fillFails with
  | some reached =>
    let s1 := (writeEach s (image.take reached)).setFault .busError
    { s1 with ntc := { s1.ntc with fillFails := none, holdDue := some (s1.uptime + Config.fillRetryHold) } }
  | none =>
    let s1 := writeEach s image
    { s1 with ntc := { s1.ntc with buffer := s1.ntc.buffer.drop Config.pageEntries, windowOpen := true, line := true,
                                   sequence := seq, dropped := false } }

/-- R195: what a page needs in either mode: the window closed, the region set, no fill retry hold. -/
def State.pageMayOpen (s : State) : Bool := !s.ntc.windowOpen && s.regionSet && s.ntc.holdDue.isNone

/-- R195: in EVENT mode a page is opened whenever the buffer is not empty, and never while the window is open. R198 says of a notice
taken after a close that opened a page that it "opens a further page at once"; that page would have to open over an open window,
which R195 and R196 exclude, so the notice waits for the next close (DEDUCED, log entry 55). -/
def eventOpen (s : State) : State :=
  if s.ntc.mode = .event ∧ s.pageMayOpen ∧ s.ntc.buffer ≠ [] then openPage s else s

/-- NOTICE_RAISE (R192). The mask tested is the one in force when EXU takes the notice, also for one that was handed over before a
SET_NOTICES (DEDUCED, log entry 73). -/
def execNoticeRaise (n : Notice) (s0 : State) : Out :=
  let s := s0.taken (.noticeRaise n)
  .next <|
    if s.masked n.kind then s
    else
      match mergeInto s.exu.dayClock n s.ntc.buffer with
      | some buffer => eventOpen { s with ntc := { s.ntc with buffer := buffer } }
      | none =>
        if s.ntc.buffer.length < Config.noticeEntries then
          eventOpen { s with ntc := { s.ntc with buffer := s.ntc.buffer ++ [{ notice := n, time := s.exu.dayClock }] } }
        else { s with ntc := { s.ntc with dropped := true } }

/-! ### The register window (R177 to R179, R183, R189, R198) -/

/-- R178: the write of RUN: a 1 while the region is unset leaves it 0. -/
def setRun (value : Bool) (s : State) : State := { s with exu := { s.exu with run := value && s.regionSet } }

/-- RUN (R178). -/
def execRun (value : Bool) (s0 : State) : Out := .next (setRun value (s0.taken (.run value)))

/-- R179: a write of one of the three region registers: ignored while RUN is 1; in EVENT mode it may open a page (R195). -/
def regionWrite (f : Exu → Exu) (s : State) : State := if s.exu.run then s else eventOpen { s with exu := f s.exu }

/-- EXCHANGE_BASE_LO (R179): the low 12 bits are stored as 0. -/
def execExchangeBaseLo (value : Word) (s0 : State) : Out :=
  .next (regionWrite (fun e => { e with baseLo := value &&& 0xFFFFF000 }) (s0.taken (.exchangeBaseLo value)))

/-- EXCHANGE_BASE_HI (R179). -/
def execExchangeBaseHi (value : Word) (s0 : State) : Out :=
  .next (regionWrite (fun e => { e with baseHi := value }) (s0.taken (.exchangeBaseHi value)))

/-- EXCHANGE_SIZE (R179). -/
def execExchangeSize (value : Word) (s0 : State) : Out :=
  .next (regionWrite (fun e => { e with size := value }) (s0.taken (.exchangeSize value)))

/-- POST (R183). -/
def execPost (offset : Word) (s0 : State) : Out :=
  let s := s0.taken (.post offset)
  .next <|
    if !s.slipPlace offset then s.setFault .postRange
    else if Config.chains ≤ s.exu.chains.length then s.setFault .postOverflow
    else { s with exu := { s.exu with chains := s.exu.chains ++ [offset] } }

/-- NOTICE (R198): a write of 1 while the window is open closes it; in EVENT mode the next page may open at once. -/
def execNotice (value : Word) (s0 : State) : Out :=
  let s := s0.taken (.notice value)
  .next <|
    if value = 1 ∧ s.ntc.windowOpen then eventOpen { s with ntc := { s.ntc with windowOpen := false, line := false } } else s

/-- FAULT (R189): each bit written as 1 is cleared. -/
def execFault (value : Word) (s0 : State) : Out :=
  let s := s0.taken (.fault value)
  .next { s with exu := { s.exu with fault := s.exu.fault &&& ~~~(value.setWidth 7) } }

/-- REGISTER_WRITE_IGNORED (R177). -/
def execRegisterWriteIgnored (offset width : Nat) (value : Word) (s0 : State) : Out :=
  .next (s0.taken (.registerWriteIgnored offset width value))

/-! ### The walker (R185 to R188) -/

/-- R188: the walker's place in the chain at the head of the list: where it left off, or the chain's head. -/
def State.placeIn (s : State) (head : Word) : Place :=
  s.exu.place.getD { next := head, slips := 0, refused := 0, headTag := 0 }

/-- R186: the chain at the head of the list is abandoned at the slip of offset `at_`. -/
def abandon (bit : FaultBit) (head : Word) (p : Place) (at_ : Word) (s : State) : State :=
  let s1 := s.setFault bit
  ({ s1 with exu := { s1.exu with chains := s1.exu.chains.tail, place := none, inWork := none, answer := none } } : State).raise
    .chainAbandoned head
    [at_, Word.ofCount bit.number, p.headTag, Word.ofCount p.slips, Word.ofCount p.refused]

/-- R202: the word of number `i` of the slip at an offset. -/
def State.slipWord (s : State) (offset : Word) (i : Nat) : Word := s.wordAt (offset.toNat + 4 * i)

/-- R202: the body of the slip at an offset, words 4 to 15. -/
def State.slipBody (s : State) (offset : Word) : Body := (List.range 12).map (fun i => s.slipWord offset (4 + i))

/-- R204: the request a slip carries; none where the kind or the authority is not one of the defined. -/
def State.slipRequest (s : State) (offset : Word) : Option Instr :=
  let header := s.slipWord offset 2
  match authorityOf (header.extractLsb' 24 8) with
  | none => none
  | some a =>
    decodeRequest ((s.slipWord offset 0).extractLsb' 8 8) { till := header.extractLsb' 16 8, authority := a } (s.slipBody offset)

/-- R182: the outcome word of a slip written. -/
def writeOutcome (offset : Word) (outcome : Nat) (reason : Nat) (s : State) : State :=
  s.writeBytes (offset.toNat + 12) (wordBytes (Word.ofCount (outcome + 256 * reason)))

/-- R185 step 6: a request is handed to its owner; a slip with none is refused BAD_REQUEST by EXU. -/
def handRequest (c : Option Instr) (s : State) : State :=
  match c with
  | none => s.answerWith (.refused .badRequest none)
  | some c => s.hand c

/-- R185 steps 5 and 6: the slip is taken: TAKEN is written, and the request it carries is handed on. -/
def takeSlip (p : Place) (s : State) : State :=
  let work : Work := { offset := p.next, link := s.slipWord p.next 1 }
  let s1 := writeOutcome p.next 1 0 { s with exu := { s.exu with place := some p, inWork := some work, answer := none } }
  handRequest (s.slipRequest p.next) s1

/-- R186: the walker's place with the host tag of the head slip, read where the slip is the head. -/
def withHeadTag (p : Place) (s : State) : Place :=
  if p.slips = 0 then { p with headTag := (s.slipWord p.next 2) &&& 0xFFFF } else p

/-- R185 steps 1 to 4: the next slip of the chain at the head of the list is tested, and the chain abandoned where a test fails;
a slip that passes goes on with `take`. -/
def testSlip (take : Place → State → State) (head : Word) (s : State) : State :=
  let p0 := s.placeIn head
  if !s.slipPlace p0.next then abandon .slipRange head p0 p0.next s
  else if (s.slipWord p0.next 0).extractLsb' 0 8 ≠ 0x5C then abandon .slipFormat head p0 p0.next s
  else
    let p := withHeadTag p0 s
    if (s.slipWord p.next 3).extractLsb' 0 8 ≠ 0 then abandon .slipNotNew head p p.next s
    else if Config.slipsPerChain ≤ p.slips then abandon .chainLong head p p.next s
    else take p s

/-- R185 steps 1 to 6: the next slip of the chain at the head of the list. -/
def walkSlip (head : Word) (s : State) : State := testSlip takeSlip head s

/-- The bytes that the host has stored in its own memory (log entry 3). -/
def hostStores (stores : List Host.Cell) (s : State) : State := stores.foldl (fun s1 e => s1.setByte e.1 e.2) s

/-- R185: the chain whose next slip the walker may take: RUN is 1, a chain is listed, and no slip is in work. -/
def State.chainToWalk (s : State) : Option Word :=
  if s.exu.run ∧ s.exu.inWork.isNone then s.exu.chains.head? else none

/-- WALKER_TAKE_SLIP (R185). -/
def execWalkerTakeSlip (stores : List Host.Cell) (s0 : State) : Out :=
  let s := hostStores stores (s0.taken (.walkerTakeSlip stores))
  match s.chainToWalk with
  | none => .next s
  | some head => .next (walkSlip head s)

/-- R182: the bytes of the body that an answer writes, from body word 0. -/
def answerBody : Answer → List Byte
  | .done results => wordsBytes ((results ++ List.replicate 12 0).take 12)
  | .refused _ word0 => (word0.map wordBytes).getD []

/-- R182: the outcome word's bytes of an answer. -/
def answerOutcome : Answer → List Byte
  | .done _ => wordBytes 2
  | .refused reason _ => wordBytes (Word.ofCount (3 + 256 * reason.code))

/-- An answer is a refusal. -/
def Answer.isRefusal : Answer → Bool
  | .done _ => false
  | .refused .. => true

/-- R185 step 8: the walker's place with the slip counted. -/
def countSlip (a : Answer) (p : Place) : Place :=
  { p with slips := p.slips + 1, refused := p.refused + if a.isRefusal then 1 else 0 }

/-- R185 step 9, R186: the link is followed, or the chain ends. -/
def followLink (head : Word) (p : Place) (link : Word) (s : State) : State :=
  if link = 0 then
    ({ s with exu := { s.exu with chains := s.exu.chains.tail, place := none, inWork := none, answer := none } } : State).raise
      .chainDone head [p.headTag, Word.ofCount p.slips, Word.ofCount p.refused]
  else { s with exu := { s.exu with place := some { p with next := link }, inWork := none, answer := none } }

/-- OUTCOME_WRITE (R182, R185 steps 7 to 9): with no slip in work, or no answer yet, there is nothing to write. -/
def execOutcomeWrite (s0 : State) : Out :=
  let s := s0.taken .outcomeWrite
  .next <|
    match s.exu.inWork, s.exu.answer, s.exu.chains.head? with
    | some w, some a, some head =>
      let s1 := s.writeSlip w.offset 16 (answerBody a)
      let s2 := s1.writeSlip w.offset 12 (answerOutcome a)
      followLink head (countSlip a (s2.placeIn head)) w.link s2
    | _, _, _ => s

/-! ### EXU's own requests (R185, R198, R199) -/

/-- NOP (R185). -/
def execNop (r : Requester) (s0 : State) : Out := finish [] (s0.taken (.nop r))

/-- R199: the report timer after SET_NOTICES: loaded in PERIODIC, stopped in EVENT. -/
def reportTimer (mode : NoticeMode) (interval : Nat) (now : Nat) : Option Nat :=
  match mode with
  | .periodic => some (now + interval)
  | .event => none

/-- SET_NOTICES (R199). -/
def execSetNotices (r : Requester) (mode interval mask : Word) (s0 : State) : Out :=
  let s := s0.taken (.setNotices r mode interval mask)
  if r.authority ≠ .supervisor then refuse .authority s
  else
    match noticeModeOf mode, within 250 10000 interval, within 0 65535 mask with
    | some m, some iv, some _ =>
      finish [mode, interval, mask]
        (eventOpen { s with ntc := { s.ntc with mode := m, interval := iv, mask := mask.setWidth 16,
                                                reportDue := reportTimer m iv s.uptime } })
    | _, _, _ => refuse .range s

/-- ACK_RESTART (R198). -/
def execAckRestart (r : Requester) (s0 : State) : Out :=
  let s := s0.taken (.ackRestart r)
  finish [s.ntc.sequence.setWidth 32] { s with ntc := { s.ntc with restarted := false } }

/-! ### Notice timers (R195, R197) -/

/-- REPORT_TIMER_EXPIRY (R195): the timer is loaded again, and a page is opened if it may be. A stopped timer does not expire. -/
def execReportTimerExpiry (s0 : State) : Out :=
  let s := s0.taken .reportTimerExpiry
  match s.ntc.reportDue with
  | none => .next s
  | some due =>
    let s1 := s.advanceTo due
    let s2 : State := { s1 with ntc := { s1.ntc with reportDue := some (s1.uptime + s1.ntc.interval) } }
    .next (if s2.pageMayOpen then openPage s2 else s2)

/-- FILL_RETRY_HOLD_END (R197): with no hold running there is none to end. -/
def execFillRetryHoldEnd (s0 : State) : Out :=
  let s := s0.taken .fillRetryHoldEnd
  match s.ntc.holdDue with
  | none => .next s
  | some due =>
    let s1 := s.advanceTo due
    .next (eventOpen { s1 with ntc := { s1.ntc with holdDue := none } })

end Sys2Proof.Machine
end

