-- ==== Sys2Proof/Machine/Kitchen.lean ====
section
/-! DEFINITION. The shared operations of the Ticket Router: the waiting queues and their key order (R118), showing, filling and
displacing (R119 to R123), lateness (R124), the order-ready test (R110, R111), tickets and their numbers (R97 to R99), routing
(R95), the retry pass (R104), freeing records (R113), stations out of service (R133, R134) and recalls (R130). -/

namespace Sys2Proof.Machine

/-! ### Pace settings as the router reads them (R121, R124) -/

/-- R121: the focus minimum of a stand at a level, in s. -/
def Pace.focus (p : Pace) : Level → Nat
  | .normal => p.focusNormal
  | .busy => p.focusBusy
  | .rush => p.focusRush

/-- R124: the late limit of a stand at a level, in s. -/
def Pace.lateLimit (p : Pace) : Level → Nat
  | .normal => p.lateNormal
  | .busy => p.lateBusy
  | .rush => p.lateRush

/-- The stand of a ticket: a batch ticket's is the home stand of its batch slot (R98). -/
def ticketStand (s : State) (t : Ticket) : StandId :=
  match t.kind with
  | .order stand _ _ => stand
  | .batch slot => (s.batch slot).home

/-- R121: a ticket's focus minimum in ms, at its stand's current level. -/
def focusMs (s : State) (t : Ticket) : Nat :=
  let p := s.pace (ticketStand s t)
  p.focus p.level * 1000

/-- R124: a ticket's late limit in ms, at its stand's current level. -/
def lateMs (s : State) (t : Ticket) : Nat :=
  let p := s.pace (ticketStand s t)
  p.lateLimit p.level * 1000

/-- An order ticket, not a batch ticket. -/
def Ticket.isOrder (t : Ticket) : Bool :=
  match t.kind with
  | .order .. => true
  | .batch _ => false

/-- The display number a frame carries: 0 for a batch ticket (R141). -/
def Ticket.display (t : Ticket) : Nat :=
  match t.kind with
  | .order _ _ d => d
  | .batch _ => 0

/-! ### Waiting queues (R118) -/

/-- R118: key order: class from highest to lowest, then fire time from oldest to newest, then index from lowest to highest. Fire
times are compared as moments on the part's millisecond count (log entry 57). -/
def keyBefore (s : State) (i j : Nat) : Bool :=
  match s.ticketAt i, s.ticketAt j with
  | some a, some b =>
    if a.cls.rank ≠ b.cls.rank then decide (b.cls.rank < a.cls.rank)
    else if a.firedAt ≠ b.firedAt then decide (a.firedAt < b.firedAt)
    else decide (i < j)
  | _, _ => false

/-- A ticket joins a station's waiting queue at its key position. -/
def joinWaiting (st : StationId) (i : Nat) (s : State) : State :=
  let q := s.queues st
  s.setQueues st { q with waiting := insertBy (keyBefore s) i q.waiting }

/-- A ticket leaves a station's waiting queue. -/
def leaveWaiting (st : StationId) (i : Nat) (s : State) : State :=
  let q := s.queues st
  s.setQueues st { q with waiting := q.waiting.erase i }

/-- A ticket leaves a station's shown set. -/
def leaveShown (st : StationId) (i : Nat) (s : State) : State :=
  let q := s.queues st
  s.setQueues st { q with shown := q.shown.erase i }

/-- The ticket of record `i` changed. -/
def mapTicket (i : Nat) (f : Ticket → Ticket) (s : State) : State :=
  match s.ticketAt i with
  | none => s
  | some t => s.setTicketAt i (f t)

/-! ### Frames to a head -/

/-- A SHOW frame for a ticket in a slot (R119 step 2, R141). -/
def showFrame (tag : Tag) (t : Ticket) (slot : Nat) : Frame :=
  .showTicket slot tag t.display t.cls t.late
    (t.entries.map (fun e => { item := e.item.val, quantity := e.quantity, void := e.void }))

/-- A MARK frame for a shown ticket (R107, R124). -/
def markFrame (tag : Tag) (t : Ticket) (slot : Nat) : Frame := .mark slot tag t.late (t.entries.map Entry.void)

/-- R144: a frame handed to SLC for a station. -/
def sendFrame (st : StationId) (f : Frame) (s : State) : State := s.hand (.frameHandover st f)

/-- A CLEAR frame for the slot that a shown ticket holds. -/
def sendClear (st : StationId) (slot : Option Nat) (s : State) : State :=
  match slot with
  | none => s
  | some k => sendFrame st (.clearSlot k) s

/-- A MARK frame for the ticket of record `i`, if it is shown. -/
def sendMark (i : Nat) (s : State) : State :=
  match s.ticketAt i with
  | none => s
  | some t =>
    match t.slot with
    | none => s
    | some k => sendFrame t.station (markFrame (s.tagAt i) t k) s

/-- R136, R206: the TICKET_STATE notice of the ticket of record `i`; a batch ticket raises none. -/
def ticketNotice (i : Nat) (s : State) : State :=
  match s.ticketAt i with
  | none => s
  | some t =>
    match t.kind with
    | .batch _ => s
    | .order _ h display =>
      s.raise .ticketState (s.tagAt i).toWord
        [Word.ofCount t.state.code, Word.ofCount t.station.val, countWord t.slot,
          Word.ofCount (t.cls.rank + (if t.late then 256 else 0) + display * 65536), h.toWord]

/-! ### Showing and filling (R119, R120) -/

/-- The lowest slot below the station's slot count that no shown ticket holds. -/
def freeSlot (s : State) (st : StationId) : Option Nat :=
  let used := (s.queues st).shown.filterMap (fun i => (s.ticketAt i).bind Ticket.slot)
  firstFrom (fun k => !used.contains k) (s.link st).count 0

/-- R119 steps 1 to 3: the ticket of record `i` is shown in a slot. -/
def showIn (st : StationId) (slot i : Nat) (s : State) : State :=
  match s.ticketAt i with
  | none => s
  | some t =>
    let t1 := { t with state := .shown, slot := some slot, shownTime := some s.exu.dayClock,
                       focusDue := some (s.uptime + focusMs s t) }
    let s1 := (leaveWaiting st i s).setTicketAt i t1
    let q := s1.queues st
    let slotBefore := fun a b => decide (((s1.ticketAt a).bind Ticket.slot).getD 0 < ((s1.ticketAt b).bind Ticket.slot).getD 0)
    sendFrame st (showFrame (s1.tagAt i) t1 slot) (s1.setQueues st { q with shown := insertBy slotBefore i q.shown })

/-- R119: the link is LIVE, a slot is free and a ticket waits: the head of the queue and the lowest free slot. -/
def nextToShow (s : State) (st : StationId) : Option (Nat × Nat) :=
  if (s.link st).state = .live then
    match freeSlot s st, (s.queues st).waiting with
    | some k, i :: _ => some (k, i)
    | _, _ => none
  else none

/-- R119: the fill of a station, at most `fuel` tickets. -/
def fillLoop (st : StationId) : Nat → State → State
  | 0, s => s
  | fuel + 1, s =>
    match nextToShow s st with
    | none => s
    | some (k, i) => fillLoop st fuel (showIn st k i s)

/-- R119: the fill of a station: as many tickets as it has slots at most. -/
def fill (st : StationId) (s : State) : State := fillLoop st (s.link st).count s

/-! ### Displacement (R121 to R123) -/

/-- R122 step 2: `i` gives way before `j`: a lower class; then the newer fire time; then the higher index. -/
def givesWay (s : State) (i j : Nat) : Bool :=
  match s.ticketAt i, s.ticketAt j with
  | some a, some b =>
    if a.cls.rank ≠ b.cls.rank then decide (a.cls.rank < b.cls.rank)
    else if a.firedAt ≠ b.firedAt then decide (b.firedAt < a.firedAt)
    else decide (j < i)
  | _, _ => false

/-- R122 steps 1 and 2: the candidate among the shown tickets whose class is below the waiting head's. -/
def candidate (s : State) (st : StationId) (head : Nat) : Option Nat :=
  let rank := fun i => (s.ticketAt i).map (fun t => t.cls.rank)
  let competing := (s.queues st).shown.filter (fun i =>
    match rank i, rank head with
    | some a, some b => decide (a < b)
    | _, _ => false)
  (sortBy (givesWay s) competing).head?

/-- R121, R122 step 3: a shown ticket is past its focus minimum: its timer has run out, or its shown age is at least the minimum.
For a batch ticket whose slot's home stand a SET_BATCH has changed since, that minimum is the new home's, while a timer started
before keeps its due time (DESIGN CHOICE: R121, R125, R76 and R77 do not say; log entry 71). -/
def pastFocus (s : State) (i : Nat) : Bool :=
  match s.ticketAt i with
  | none => false
  | some t =>
    match t.focusDue, t.shownTime with
    | none, _ => true
    | some _, none => false
    | some _, some shown => decide (focusMs s t ≤ s.age shown)

/-- A shown ticket becomes WAITING and joins the waiting queue at its key position; its slot, shown time and focus timer go. -/
def backToWaiting (st : StationId) (i : Nat) (s : State) : State :=
  let s1 := mapTicket i (fun t => { t with state := .waiting, slot := none, shownTime := none, focusDue := none }) (leaveShown st i s)
  joinWaiting st i s1

/-- R123 steps 1 to 3: the candidate `c` is displaced by the waiting head `h`. -/
def displace (st : StationId) (c h : Nat) (s : State) : State :=
  match (s.ticketAt c).bind Ticket.slot with
  | none => s
  | some k => showIn st k h (backToWaiting st c (sendFrame st (.clearSlot k) s))

/-- R122: one displacement test: the candidate and the head that displaces it, if one is displaced. -/
def displacement (s : State) (st : StationId) : Option (Nat × Nat) :=
  if (s.link st).state = .live ∧ freeSlot s st = none then
    match (s.queues st).waiting with
    | [] => none
    | h :: _ =>
      match candidate s st h with
      | none => none
      | some c => if pastFocus s c then some (c, h) else none
  else none

/-- R123 step 4: the test is made again after each displacement. -/
def displaceLoop (st : StationId) : Nat → State → State
  | 0, s => s
  | fuel + 1, s =>
    match displacement s st with
    | none => s
    | some (c, h) => displaceLoop st fuel (displace st c h s)

/-- R122: the displacement test. Each displacement raises the class shown in one slot, so two for each shown ticket suffice. -/
def displaceTest (st : StationId) (s : State) : State := displaceLoop st (2 * (s.queues st).shown.length) s

/-- R120: the fill of a station, followed by the displacement test. -/
def fillAndTest (st : StationId) (s : State) : State := displaceTest st (fill st s)

/-- R120 for several stations, in turn. -/
def fillAll (sts : List StationId) (s : State) : State := sts.foldl (fun s1 st => fillAndTest st s1) s

/-! ### Lateness (R124) -/

/-- R124 steps 1 to 3: the ticket of record `i` turns late. -/
def turnLate (i : Nat) (s : State) : State :=
  sendMark i (ticketNotice i (mapTicket i (fun t => { t with late := true, lateDue := none }) s))

/-- R125, R130: an order ticket that is not late is tested against a limit in ms: late at once, or due again at its fire time plus
the limit. Its age is counted on the part's millisecond count (R180, log entry 57). -/
def testLate (i ms : Nat) (s : State) : State :=
  match s.ticketAt i with
  | none => s
  | some t =>
    if t.isOrder ∧ !t.late then
      if t.firedAt + ms ≤ s.uptime then turnLate i s
      else s.setTicketAt i { t with lateDue := some (t.firedAt + ms) }
    else s

/-! ### Order-ready (R110, R111) -/

/-- The order tickets of a check still in use, in fire order: the oldest first, and among equals the lowest index
(DEDUCED, log entry 23). -/
def ticketsOfCheck (s : State) (h : Handle) : List (Nat × Ticket) :=
  sortBy (fun a b => decide (a.2.firedAt < b.2.firedAt) || (decide (a.2.firedAt = b.2.firedAt) && decide (a.1 < b.1)))
    (s.tickets.filter (fun e =>
      match e.2.kind with
      | .order _ g _ => decide (g = h)
      | .batch _ => false))

/-- Two numbers in one word, the first in the low half. -/
def pairWord (l : List Nat) (i : Nat) : Word := Word.ofCount (l.getD i 0 % 65536 + l.getD (i + 1) 0 * 65536)

/-- R111: the values of ORDER_READY: the stand, the number of tickets in use, and the first six display numbers. -/
def orderReadyValues (s : State) (h : Handle) (c : Check) : List Word :=
  let ts := ticketsOfCheck s h
  let ds := (ts.map (fun e => e.2.display)).take 6
  [Word.ofCount c.stand.val, Word.ofCount ts.length, pairWord ds 0, pairWord ds 2, pairWord ds 4]

/-- R110: the order-ready test of a check as it now stands: when it passes the flag is set and ORDER_READY raised. -/
def orderReadyTest (h : Handle) (s : State) : State :=
  match s.check h with
  | none => s
  | some c =>
    if c.ready (s.stand c.stand).policy then
      (s.setCheck h { c with orderReady := true }).raise .orderReady h.toWord (orderReadyValues s h c)
    else s

/-- R63: the order-ready test that an event other than the close makes. Until CHECK_CLOSE_TOLD has brought the close to the router,
the close's own test is still to come: it sees what this event did, and ORDER_READY is raised then (log entry 56). -/
def orderReadyOnEvent (h : Handle) (s : State) : State :=
  if s.handovers.contains (.checkCloseTold h) then s else orderReadyTest h s

/-! ### Routing (R94 step 3, R95) -/

/-- R94 step 3: the station that a stand's route table gives for an item's prep route, as CKS and ISU hold them then (DEDUCED, log
entry 58). -/
def routeFor (s : State) (stand : StandId) (x : ItemId) : Option StationId :=
  (s.stand stand).routes.getD (s.item x).prepRoute.val none

/-- R95: the station a ticket goes to: the one its route names, or that station's fallback, by the link states that SLC holds then
(DEDUCED, log entry 58). -/
def chooseStation (s : State) (st : StationId) : StationId :=
  if (s.link st).state = .live ∨ (s.link st).state = .rejoining then st
  else
    match (s.link st).fallback with
    | none => st
    | some f => if (s.link f).state = .live then f else st

/-! ### Tickets (R97 to R99) -/

/-- R97: the lowest-numbered free ticket record. -/
def freeRecordIndex (s : State) : Option Nat := firstFrom (fun i => (s.ticketAt i).isNone) Config.ticketRecords 0

/-- R99: the display numbers held by the order tickets of a stand in use. -/
def displaysHeld (s : State) (stand : StandId) : List Nat :=
  s.tickets.filterMap (fun e =>
    match e.2.kind with
    | .order st _ d => if st = stand then some d else none
    | .batch _ => none)

/-- R99: a display number plus one, 9,999 wrapping to 1. -/
def nextDisplay (n : Nat) : Nat := if 9999 ≤ n then 1 else n + 1

/-- R99: from `n` on, the first number that is not held. -/
def freeDisplay (held : List Nat) : Nat → Nat → Nat
  | 0, n => n
  | fuel + 1, n => if held.contains n then freeDisplay held fuel (nextDisplay n) else n

/-- R99: a stand gives a display number. -/
def takeDisplay (stand : StandId) (s : State) : State × Nat :=
  let d := freeDisplay (displaysHeld s stand) Config.ticketRecords (s.stand stand).nextDisplay
  (s.setStand stand { s.stand stand with nextDisplay := nextDisplay d }, d)

/-- R97 to R99, R105, R111: an order ticket of a check is made, if a record is free; the check's counts rise and its order-ready
flag is cleared. The ticket does not yet stand in a queue. -/
def makeOrderTicket (h : Handle) (c : Check) (st : StationId) (entries : List Entry) (cont : Option Tag) (s : State) :
    Option (State × Nat) :=
  match freeRecordIndex s with
  | none => none
  | some i =>
    let r := takeDisplay c.stand s
    let t : Ticket :=
      { kind := .order c.stand h r.2, station := st, cls := c.priority, fireTime := s.exu.dayClock, firedAt := s.uptime, entries := entries,
        continuedFrom := cont }
    let s1 := r.1.setTicketAt i { t with lateDue := some (s.uptime + lateMs s t) }
    some (s1.mapCheck h (fun c1 =>
      { c1 with ticketsOut := c1.ticketsOut + 1, ticketsFired := c1.ticketsFired + 1, orderReady := false }), i)

/-- The entry of a line (R96, R98). -/
def lineEntry (r : LineRef) (l : Line) : Entry := { ref := .line r, item := l.item, quantity := l.quantity }

/-- Lines become FIRED with a ticket's tag. -/
def markFired (h : Handle) (lines : List Nat) (tag : Tag) (s : State) : State :=
  lines.foldl (fun s1 i => s1.mapLine { check := h, line := i } (fun l => { l with fire := .fired, ticket := some tag })) s

/-- A check's tickets outstanding falls by one (R105). -/
def outLess (h : Handle) (s : State) : State := s.mapCheck h (fun c => { c with ticketsOut := c.ticketsOut - 1 })

/-! ### The retry pass (R104) -/

/-- A ticket made by a pass: its check, its station and its record. -/
structure PassTicket where
  check : Handle
  station : StationId
  index : Nat
  deriving DecidableEq, Repr

/-- What a retry pass has done so far. -/
structure Pass where
  state : State
  /-- The tickets made, in order. -/
  made : List PassTicket
  /-- The checks that had a line placed or served. -/
  touched : List Handle
  /-- The lines that keep their places in the list. -/
  kept : List LineRef
  /-- A record was lacking: the pass has stopped. -/
  stopped : Bool

/-- The tickets of a pass for one check and station. -/
def Pass.ticketsFor (p : Pass) (h : Handle) (st : StationId) : List PassTicket :=
  p.made.filter (fun m => decide (m.check = h ∧ m.station = st))

/-- R104 steps 1 to 4 for one line of the list. A line that is void, or whose check's slot has been freed, is passed over and
keeps its place until the event that removes it is taken (R23, R114; log entry 22). -/
def retryLine (p : Pass) (r : LineRef) : Pass :=
  if p.stopped then { p with kept := p.kept ++ [r] }
  else
    match p.state.line r with
    | none => { p with kept := p.kept ++ [r] }
    | some (c, l) =>
      if l.void then { p with kept := p.kept ++ [r] }
      else
        match routeFor p.state c.stand l.item with
        | none =>
          { p with
            state := outLess r.check (p.state.mapLine r (fun l => { l with fire := .served, drawn := false }))
            touched := p.touched ++ [r.check] }
        | some st0 =>
          let st := chooseStation p.state st0
          let mine := p.ticketsFor r.check st
          let open? := (mine.getLast?).filter (fun m =>
            match p.state.ticketAt m.index with
            | none => false
            | some t => decide (t.entries.length < Config.entriesPerTicket))
          match open? with
          | some m =>
            let s1 := mapTicket m.index (fun t => { t with entries := t.entries ++ [lineEntry r l] }) p.state
            { p with
              state := outLess r.check (markFired r.check [r.line] (s1.tagAt m.index) s1)
              touched := p.touched ++ [r.check] }
          | none =>
            let cont := mine.head?.map (fun m => p.state.tagAt m.index)
            match makeOrderTicket r.check c st [lineEntry r l] cont p.state with
            | none => { p with kept := p.kept ++ [r], stopped := true }
            | some (s1, i) =>
              { p with
                state := outLess r.check (markFired r.check [r.line] (s1.tagAt i) s1)
                made := p.made ++ [{ check := r.check, station := st, index := i }]
                touched := p.touched ++ [r.check] }

/-- R104: the retry pass over the unsent list; its tickets join their queues when the pass ends, each station's fill is made once
(R120), and the order-ready test of each check that had a line placed or served (R110), the first touched first (DESIGN CHOICE, log
entry 60). -/
def retryPass (s : State) : State :=
  let p := s.tkr.unsent.foldl retryLine { state := s, made := [], touched := [], kept := [], stopped := false }
  let s1 := { p.state with tkr := { p.state.tkr with unsent := p.kept } }
  let s2 := p.made.foldl (fun s m => joinWaiting m.station m.index s) s1
  let s3 := fillAll (p.made.map PassTicket.station).eraseDups s2
  p.touched.eraseDups.foldl (fun s h => orderReadyOnEvent h s) s3

/-! ### Firing (R94, R96, R103) -/

/-- What the first part of a firing has done so far: the ticket lines with the stations chosen, and the batches that draws have
ordered, for which the router is asked once the firing has been taken (log entry 5). -/
structure FireAcc where
  state : State
  ticketLines : List (Nat × StationId)
  asks : List (SlotId × Nat)
  takenLines : Nat

/-- R94 step 3: a line without a draw is routed: counter-served, or a ticket line. -/
def routeLine (h : Handle) (c : Check) (l : Line) (i : Nat) (acc : FireAcc) : FireAcc :=
  match routeFor acc.state c.stand l.item with
  | none =>
    { acc with
      state := acc.state.mapLine { check := h, line := i } (fun l => { l with fire := .served, drawn := false })
      takenLines := acc.takenLines + 1 }
  | some st =>
    { acc with ticketLines := acc.ticketLines ++ [(i, chooseStation acc.state st)], takenLines := acc.takenLines + 1 }

/-- R94 steps 1 to 3 for one line that the firing names; a line that is void or in another state is passed over (R93). What the router
has handed to ISU before reaches ISU before the draw does (R1). -/
def fireLine (h : Handle) (expected : FireState) (acc : FireAcc) (i : Nat) : FireAcc :=
  match acc.state.line { check := h, line := i } with
  | none => acc
  | some (c, l) =>
    if l.void ∨ l.fire ≠ expected then acc
    else
      let slot := (acc.state.item l.item).slot
      let s1 := acc.state.hand (.countAdd c.stand slot l.quantity)
      match slot with
      | none => routeLine h c l i { acc with state := s1 }
      | some t =>
        let d := deliverToIsu .tkr s1
        match warmerDraw t l.quantity d.1 with
        | (s2, true, ask) =>
          { state := s2.mapLine { check := h, line := i } (fun l => { l with fire := .served, drawn := true })
            ticketLines := acc.ticketLines
            asks := acc.asks ++ d.2 ++ ask.toList.map (fun n => (t, n))
            takenLines := acc.takenLines + 1 }
        | (s2, false, _) => routeLine h c l i { acc with state := s2, asks := acc.asks ++ d.2 }

/-- A list cut into pieces of up to `n`. -/
def pieces {α : Type} (n : Nat) : Nat → List α → List (List α)
  | 0, _ => []
  | _, [] => []
  | fuel + 1, l => l.take n :: pieces n fuel (l.drop n)

/-- R96: the tickets a firing must make, in order: a station and the lines of one ticket; the stations in the order of their first
ticket line, the lines in list order, up to 12 a ticket. -/
def planTickets (ls : List (Nat × StationId)) : List (StationId × List Nat) :=
  (ls.map Prod.snd).eraseDups.flatMap (fun st =>
    (pieces Config.entriesPerTicket ls.length ((ls.filter (fun e => decide (e.2 = st))).map Prod.fst)).map (fun p => (st, p)))

/-- What placing the tickets of a firing has done so far. -/
structure PlaceAcc where
  state : State
  /-- The first ticket made for each station. -/
  first : List (StationId × Tag)
  /-- The lines that found no record. -/
  unplaced : List Nat

/-- R96, R103: one planned ticket: made and placed in its station's waiting queue, or its lines are left over. -/
def placeTicket (h : Handle) (acc : PlaceAcc) (plan : StationId × List Nat) : PlaceAcc :=
  if acc.unplaced ≠ [] then { acc with unplaced := acc.unplaced ++ plan.2 }
  else
    match acc.state.check h with
    | none => acc
    | some c =>
      let entries := plan.2.filterMap (fun i => (c.lines[i]?).map (fun l => lineEntry { check := h, line := i } l))
      let cont := (acc.first.find? (fun e => decide (e.1 = plan.1))).map Prod.snd
      match makeOrderTicket h c plan.1 entries cont acc.state with
      | none => { acc with unplaced := plan.2 }
      | some (s1, i) =>
        let tag := s1.tagAt i
        { state := joinWaiting plan.1 i (markFired h plan.2 tag s1)
          first := if cont.isNone then acc.first ++ [(plan.1, tag)] else acc.first
          unplaced := [] }

/-- R103: lines become UNSENT and join the unsent list in list order; the check's tickets outstanding rises by one for each, and
one UNSENT notice is raised. -/
def makeUnsent (h : Handle) (lines : List Nat) (s : State) : State :=
  if lines = [] then s
  else
    let s1 := lines.foldl (fun s i => s.mapLine { check := h, line := i } (fun l => { l with fire := .unsent, ticket := none })) s
    let s2 := s1.mapCheck h (fun c => { c with ticketsOut := c.ticketsOut + lines.length })
    let list := s2.tkr.unsent ++ lines.map (fun i => ({ check := h, line := i } : LineRef))
    let s3 := { s2 with tkr := { s2.tkr with unsent := list } }
    s3.raise .unsent h.toWord [0, Word.ofCount lines.length, Word.ofCount list.length]

/-- The check of a handle is CLOSED. -/
def checkClosed (s : State) (h : Handle) : Bool :=
  match s.check h with
  | none => false
  | some c => decide (c.state = .closed)

/-- R94 to R96, R103, R110: a firing of lines of a check, each expected in a fire state, with the fill of each station where a ticket
of it has joined the waiting queue (R120), in the order of their first tickets, and the order-ready test that follows where the check
is CLOSED. Answers the batches ordered by its draws. All draws are made in the one step, so no lot expiry falls between two
of them, as R94 would allow (DESIGN CHOICE, log entry 68). -/
def fireLines (h : Handle) (lines : List Nat) (expected : FireState) (ready : Handle → State → State) (s : State) :
    State × List (SlotId × Nat) :=
  let a := lines.foldl (fireLine h expected) { state := s, ticketLines := [], asks := [], takenLines := 0 }
  let p := (planTickets a.ticketLines).foldl (placeTicket h) { state := a.state, first := [], unplaced := [] }
  let left := (a.ticketLines.map Prod.fst).filter (fun i => p.unplaced.contains i)
  let s1 := makeUnsent h left p.state
  let s2 := fillAll (p.first.map Prod.fst) s1
  (if a.takenLines ≠ 0 ∧ checkClosed s2 h then ready h s2 else s2, a.asks)

/-! ### Batch tickets (R87, R100) -/

/-- R100: the router's answer to an ask for a batch ticket. -/
inductive BatchAnswer where
  | made (tag : Tag)
  | noRoute
  | noTicket
  deriving DecidableEq, Repr

/-- R100: a batch ticket is made for a slot and a quantity, routed from the slot's station, and placed in its waiting queue. -/
def makeBatchTicket (t : SlotId) (q : Nat) (s : State) : State × BatchAnswer :=
  match (s.batch t).item, slotStation s t with
  | some x, some st0 =>
    let st := chooseStation s st0
    match freeRecordIndex s with
    | none => (s, .noTicket)
    | some i =>
      let ticket : Ticket :=
        { kind := .batch t, station := st, cls := .normal, fireTime := s.exu.dayClock, firedAt := s.uptime,
          entries := [{ ref := .slot t, item := x, quantity := q }] }
      let s1 := s.setTicketAt i ticket
      (fillAndTest st (joinWaiting st i s1), .made (s1.tagAt i))
  | _, _ => (s, .noRoute)

/-- R87 steps 5 and 6: the router is asked, and ISU records the tag or raises BATCH_SKIPPED (NO_ROUTE 1, NO_TICKET 2). -/
def askBatch (t : SlotId) (q : Nat) (s : State) : State × BatchAnswer :=
  match makeBatchTicket t q s with
  | (s1, .made tag) => (s1.setBatch t { s1.batch t with outstanding := some tag }, .made tag)
  | (s1, .noRoute) => (s1.raise .batchSkipped (Word.ofCount t.val) [1], .noRoute)
  | (s1, .noTicket) => (s1.raise .batchSkipped (Word.ofCount t.val) [2], .noTicket)

/-- The ask that an operation of ISU ended with, if it ended with one. -/
def askIf (t : SlotId) (r : State × Option Nat) : State :=
  match r.2 with
  | none => r.1
  | some n => (askBatch t n r.1).1

/-- The asks that a firing's draws ended with. A slot whose ticket one of them has already brought asks for no second (R87). -/
def askEach (r : State × List (SlotId × Nat)) : State :=
  r.2.foldl (fun s e => if (s.batch e.1).outstanding.isSome then s else (askBatch e.1 e.2 s).1) r.1

/-- R86, R88, R90: a batch is ordered over `seconds` and the router asked; the answer says what was done: 1 ticket made, 2 BEHIND,
3 SKIPPED, with the tag of a ticket made. -/
def makeBatch (t : SlotId) (seconds : Nat) (s : State) : State × Nat × Option Tag :=
  match orderBatch t seconds s with
  | (s1, .behind) => (s1, 2, none)
  | (s1, .full) => (s1, 3, none)
  | (s1, .ask n) =>
    match askBatch t n s1 with
    | (s2, .made tag) => (s2, 1, some tag)
    | (s2, _) => (s2, 3, none)

/-! ### Freeing records (R113) -/

/-- R113: a batch ticket freed while WAITING or SHOWN is a cancellation, handed to ISU. -/
def cancelIfBatch (t : Ticket) (s : State) : State :=
  match t.kind with
  | .order .. => s
  | .batch slot => s.hand (.batchCancel slot)

/-! ### Stations out of service (R133, R134) -/

/-- R133, R135: shown tickets are returned to waiting, in slot order, with no CLEAR. -/
def returnShown (st : StationId) (which : Nat → Bool) (s : State) : State :=
  ((s.queues st).shown.filter (fun i => which (((s.ticketAt i).bind Ticket.slot).getD 0))).foldl (fun s1 i => backToWaiting st i s1) s

/-- R134: the fallback that a stranded station's tickets go to: its link is DARK, STARTING or OFFLINE and its fallback's is LIVE. -/
def strandedTo (s : State) (st : StationId) : Option StationId :=
  if (s.link st).state = .live ∨ (s.link st).state = .rejoining then none
  else (s.link st).fallback.filter (fun f => decide ((s.link f).state = .live))

/-- R134: one waiting ticket moves to the fallback's queue, and raises TICKET_STATE. -/
def moveTicket (st f : StationId) (s : State) (i : Nat) : State :=
  ticketNotice i (joinWaiting f i (mapTicket i (fun t => { t with station := f }) (leaveWaiting st i s)))

/-- R134: while a station is stranded its waiting tickets move, in key order, and the fallback's fill and test follow. -/
def strandedMove (st : StationId) (s : State) : State :=
  match strandedTo s st with
  | none => s
  | some f =>
    if (s.queues st).waiting = [] then s
    else fillAndTest f ((s.queues st).waiting.foldl (moveTicket st f) s)

/-- The stations whose fallback is `f`. -/
def relyingOn (s : State) (f : StationId) : List StationId :=
  (List.finRange 24).filter (fun st => decide ((s.link st).fallback = some f))

/-! ### Recall (R130) -/

/-- R130 step 2: a ticket taken from a bumped list is shown in the lowest free slot of a LIVE link, or joins the waiting queue. -/
def placeRecalled (st : StationId) (i : Nat) (s : State) : State :=
  let wait := joinWaiting st i (mapTicket i (fun t => { t with state := .waiting }) s)
  if (s.link st).state = .live then
    match freeSlot s st with
    | some k => showIn st k i s
    | none => wait
  else wait

/-- R112, R130 step 4: a recalled order ticket's check: outstanding rises, and a set order-ready flag is cleared with
ORDER_RECALLED. -/
def recallEffects (t : Ticket) (s : State) : State :=
  match t.kind with
  | .batch _ => s
  | .order _ h display =>
    match s.check h with
    | none => s
    | some c =>
      let s1 := s.setCheck h { c with ticketsOut := c.ticketsOut + 1, orderReady := false }
      if c.orderReady then s1.raise .orderRecalled h.toWord [Word.ofCount display] else s1

/-- R130 steps 1 to 6, R131: the ticket of record `i` leaves its station's bumped list and comes back; a stranded station's tickets
then move on (R134). -/
def recallRecord (i : Nat) (t : Ticket) (s : State) : State :=
  let st := t.station
  let q := s.queues st
  let s1 := placeRecalled st i (s.setQueues st { q with bumped := q.bumped.erase i })
  let s2 := ticketNotice i (recallEffects t (testLate i (lateMs s1 t) s1))
  strandedMove st (fillAndTest st s2)

/-! ### Bump (R126) -/

/-- R126 step 2: a ticket goes to the front of its station's bumped list; a seventh is pushed out and its record freed. -/
def pushBumped (st : StationId) (i : Nat) (s : State) : State × Bool :=
  let q := s.queues st
  let list := i :: q.bumped
  let s1 := s.setQueues st { q with bumped := list.take Config.bumpedPerStation }
  match list[Config.bumpedPerStation]? with
  | none => (s1, false)
  | some j => (s1.freeRecord j, true)

/-- R126 step 4: the effects of a bump: an order ticket's check, or a batch bump at ISU. -/
def bumpEffects (t : Ticket) (s : State) : State :=
  match t.kind with
  | .order _ h _ => orderReadyOnEvent h (outLess h s)
  | .batch slot => s.hand (.batchBump slot ((t.entries.map Entry.quantity).sum))

/-- R126 steps 1 to 7: the shown ticket of record `i` is bumped. -/
def bumpRecord (i : Nat) (t : Ticket) (s : State) : State :=
  let st := t.station
  let s1 := mapTicket i (fun t => { t with state := .bumped, slot := none, shownTime := none, focusDue := none, lateDue := none })
    (leaveShown st i s)
  let r := pushBumped st i s1
  let s2 := fillAndTest st (ticketNotice i (bumpEffects t (sendClear st t.slot r.1)))
  if r.2 then retryPass s2 else s2

end Sys2Proof.Machine
end

