-- ==== Sys2Proof/Machine/Tickets.lean ====
section
/-! DEFINITION. The requests and events of the Ticket Router (spec/05_firing_and_kitchen_tickets.md and
spec/06_station_queues.md). -/

namespace Sys2Proof.Machine

/-! ### Firing (R94, R101) -/

/-- R63, R110: the order-ready test after a firing: the close's own firing is part of the close, and makes the test at once. -/
def testAfter (cause : FireCause) : Handle → State → State := if cause = .close then orderReadyTest else orderReadyOnEvent

/-- FIRING (R94): the causes that name lines expect them HELD (R93); the batches that the draws ordered are asked for at the end
(log entry 5). -/
def execFiring (h : Handle) (lines : List Nat) (cause : FireCause) (s0 : State) : Out :=
  .next (askEach (fireLines h lines .held (testAfter cause) (s0.taken (.firing h lines cause))))

/-- R101: the entries of the delay list in order: by due time, then slot number, then line index. -/
def delayBefore (s : State) (a b : Delay) : Bool :=
  let x := (a.due - s.exu.dayClock).toInt
  let y := (b.due - s.exu.dayClock).toInt
  if x ≠ y then decide (x < y)
  else if a.ref.check.slot ≠ b.ref.check.slot then decide (a.ref.check.slot.toNat < b.ref.check.slot.toNat)
  else decide (a.ref.line < b.ref.line)

/-- R101: an entry leaves the delay list. -/
def dropDelay (ref : LineRef) (s : State) : State :=
  { s with tkr := { s.tkr with delays := s.tkr.delays.filter (fun d => decide (d.ref ≠ ref)) } }

/-- DELAY_LIST_JOIN (R101): a live HELD line joins the list and becomes TIMING; another is passed over (log entry 22). -/
def execDelayListJoin (ref : LineRef) (due : Word) (s0 : State) : Out :=
  let s := s0.taken (.delayListJoin ref due)
  match s.line ref with
  | none => .next s
  | some (_, l) =>
    if l.void ∨ l.fire ≠ .held then .next s
    else
      let s1 := s.mapLine ref (fun l => { l with fire := .timing })
      .next { s1 with tkr := { s1.tkr with delays := insertBy (delayBefore s1) { ref := ref, due := due } s1.tkr.delays } }

/-- DELAY_EXPIRY (R101): the entry leaves the list and its line fires; a line that is not on the list has no expiry. -/
def execDelayExpiry (ref : LineRef) (s0 : State) : Out :=
  let s := s0.taken (.delayExpiry ref)
  match s.tkr.delays.find? (fun d => decide (d.ref = ref)) with
  | none => .next s
  | some d => .next (askEach (fireLines ref.check [ref.line] .timing orderReadyOnEvent (dropDelay ref (s.advance (s.msUntil d.due)))))

/-- CHECK_CLOSE_TOLD (R62, R110). -/
def execCheckCloseTold (h : Handle) (s0 : State) : Out := .next (orderReadyTest h (s0.taken (.checkCloseTold h)))

/-! ### Voids in the kitchen (R106 to R109) -/

/-- An entry is of the line named. -/
def Entry.isOf (ref : LineRef) (e : Entry) : Bool := decide (e.ref = .line ref)

/-- R107: the void mark of a line's entry is set. -/
def Ticket.voided (ref : LineRef) (t : Ticket) : Ticket :=
  { t with entries := t.entries.map (fun e => if e.isOf ref then { e with void := true } else e) }

/-- R107, R113: a ticket of which every entry is void leaves its queue or set and is freed; a slot it leaves is filled, and the
retry pass follows (log entry 20). -/
def freeVoided (h : Handle) (i : Nat) (t : Ticket) (s : State) : State :=
  match t.state with
  | .shown => retryPass (fillAndTest t.station (outLess h ((leaveShown t.station i (sendClear t.station t.slot s)).freeRecord i)))
  | _ => retryPass (outLess h ((leaveWaiting t.station i s).freeRecord i))

/-- R107, R108: a line voided on the ticket of record `i`. -/
def voidEntry (ref : LineRef) (x : ItemId) (q i : Nat) (t : Ticket) (s : State) : State :=
  let t1 := t.voided ref
  let s1 := s.setTicketAt i t1
  if t.state = .bumped then s1.waste x .voidedCooked q
  else if t1.entries.all Entry.void then freeVoided ref.check i t1 s1
  else sendMark i s1

/-- R106: a voided FIRED line acts on the ticket that its reference names, where that is live and holds the line. -/
def voidFired (ref : LineRef) (x : ItemId) (q : Nat) (tag : Option Tag) (s : State) : State :=
  match tag with
  | none => s
  | some g =>
    match s.ticket g with
    | none => s
    | some t => if t.entries.any (Entry.isOf ref) then voidEntry ref x q g.index.toNat t s else s

/-- R106: a voided UNSENT line leaves the unsent list and its check's tickets outstanding falls by one. -/
def voidUnsent (ref : LineRef) (s : State) : State :=
  if s.tkr.unsent.contains ref then outLess ref.check { s with tkr := { s.tkr with unsent := s.tkr.unsent.erase ref } } else s

/-- R106: the kitchen effect of a void, by the fire state the line held, whether its record still stands or CKS has freed it. The slot
paired with the item "when the void is taken" (R81) is read here, where the router takes KITCHEN_VOID, and not where CKS took VOID_LINE (DESIGN CHOICE, log entry 49). -/
def voidEffect (ref : LineRef) (x : ItemId) (q : Nat) (v : VoidedLine) (s : State) : State :=
  match v.was with
  | .held => s
  | .timing => dropDelay ref s
  | .unsent => voidUnsent ref s
  | .fired => voidFired ref x q v.ticket s
  | .served => if v.drawn then s.hand (.voidReturn x (s.item x).slot q) else s

/-- R109: a line that had fired is taken off the sample counts, of the slot paired with its item as KITCHEN_VOID finds it (log entry
49). -/
def uncountVoid (x : ItemId) (q : Nat) (v : VoidedLine) (s : State) : State :=
  match v.was with
  | .held | .timing => s
  | .fired | .served | .unsent => s.hand (.countTake v.stand (s.item x).slot q)

/-- KITCHEN_VOID (R106): the router takes the void before it is told of the freeing of the check's slot (R1), so the void acts though
the slot may have been freed at CKS; then no check is left to count the outstanding tickets of (log entry 39). -/
def execKitchenVoid (ref : LineRef) (x : ItemId) (q : Nat) (v : VoidedLine) (s0 : State) : Out :=
  let s := s0.taken (.kitchenVoid ref x q v)
  .next (voidEffect ref x q v (uncountVoid x q v s))

/-! ### Slots freed (R114) -/

/-- SLOT_FREED (R114). -/
def execSlotFreed (h : Handle) (s0 : State) : Out :=
  let s := s0.taken (.slotFreed h)
  let delays := s.tkr.delays.filter (fun d => decide (d.ref.check ≠ h))
  let unsent := s.tkr.unsent.filter (fun r => decide (r.check ≠ h))
  let n := (s.tkr.delays.length - delays.length) + (s.tkr.unsent.length - unsent.length)
  let s1 := { s with tkr := { s.tkr with delays := delays, unsent := unsent } }
  .next (if n = 0 then s1 else s1.raise .unsent h.toWord [1, Word.ofCount n, Word.ofCount unsent.length])

/-! ### Batch tickets (R100) -/

/-- The answer to a batch ask that came as a command of its own. -/
def batchAskAnswer : BatchAnswer → AskAnswer
  | .made tag => .ticketMade tag
  | .noRoute => .noRoute
  | .noTicket => .noTicket

/-- BATCH_TICKET_ASK (R100, R87): ISU asks only while none is outstanding, so another ask has no effect (log entry 8). -/
def execBatchTicketAsk (t : SlotId) (q : Nat) (s0 : State) : Out :=
  let s := s0.taken (.batchTicketAsk t q)
  if (s.batch t).outstanding.isSome then .next s
  else
    match askBatch t q s with
    | (s1, answer) => .next (s1.askAnswered (batchAskAnswer answer))

/-! ### Keys (R126 to R130) -/

/-- R127: a stale bump: answered STALE, and a refresh asked for. -/
def staleBump (st : StationId) (s : State) : State := s.handAll [.keyAnswer st .stale, .refreshRequest st]

/-- BUMP (R126, R127). -/
def execBump (st : StationId) (tag : Tag) (s0 : State) : Out :=
  let s := s0.taken (.bump st tag)
  match s.ticket tag with
  | none => .next (staleBump st s)
  | some t =>
    if t.state = .shown ∧ t.station = st then .next ((bumpRecord tag.index.toNat t s).hand (.keyAnswer st .ack))
    else .next (staleBump st s)

/-- R129, R130: the order ticket at the front of a station's bumped list, where one stands there. -/
def frontRecallable (s : State) (st : StationId) : Option (Nat × Ticket) :=
  match (s.queues st).bumped with
  | [] => none
  | i :: _ => ((s.ticketAt i).filter Ticket.isOrder).map (fun t => (i, t))

/-- RECALL (R129, R130). -/
def execRecall (st : StationId) (tag : Tag) (s0 : State) : Out :=
  let s := s0.taken (.recall st tag)
  match frontRecallable s st with
  | none => .next (s.hand (.keyAnswer st .stale))
  | some (i, t) => .next ((recallRecord i t s).hand (.keyAnswer st .ack))

/-! ### Timers (R121, R124) and pace (R125) -/

/-- FOCUS_TIMER_EXPIRY (R121): a ticket with no focus timer running has no expiry. -/
def execFocusTimerExpiry (tag : Tag) (s0 : State) : Out :=
  let s := s0.taken (.focusTimerExpiry tag)
  match s.ticket tag with
  | none => .next s
  | some t =>
    match t.focusDue with
    | none => .next s
    | some due =>
      .next (displaceTest t.station ((s.advanceTo due).setTicketAt tag.index.toNat { t with focusDue := none }))

/-- LATE_TIMER_EXPIRY (R124): a ticket with no late timer running has no expiry. -/
def execLateTimerExpiry (tag : Tag) (s0 : State) : Out :=
  let s := s0.taken (.lateTimerExpiry tag)
  match s.ticket tag with
  | none => .next s
  | some t =>
    match t.lateDue with
    | none => .next s
    | some due => .next (turnLate tag.index.toNat (s.advanceTo due))

/-- R125: a shown ticket's focus timer under a new minimum in ms: due again, or expired. -/
def moveFocus (i ms : Nat) (s : State) : State :=
  match s.ticketAt i with
  | none => s
  | some t =>
    match t.focusDue, t.shownTime with
    | some _, some shown =>
      s.setTicketAt i
        { t with focusDue := if ms ≤ s.age shown then none else some (s.uptime + (ms - s.age shown)) }
    | _, _ => s

/-- R125: one ticket of the stand tested for lateness and its focus timer moved. -/
def paceTicket (limit focus : Nat) (s : State) (e : Nat × Ticket) : State :=
  moveFocus e.1 focus (if e.2.state = .bumped then s else testLate e.1 limit s)

/-- The tickets of a stand, by index. -/
def ticketsOfStand (s : State) (n : StandId) : List (Nat × Ticket) :=
  s.tickets.filter (fun e => decide (ticketStand s e.2 = n))

/-- R125: the stations that show a ticket of a stand. -/
def showingStations (s : State) (n : StandId) : List StationId :=
  (List.finRange 24).filter (fun st =>
    (ticketsOfStand s n).any (fun e => decide (e.2.station = st) && decide (e.2.state = .shown)))

/-- PACE_CHANGE_TKR (R125): the tickets in index order, then the displacement tests by station (log entry 19), under the focus minimum
and the late limit that the announcement brings (R174). -/
def execPaceChangeTkr (n : StandId) (pace : PaceInForce) (s0 : State) : Out :=
  let s := s0.taken (.paceChangeTkr n pace)
  let s1 := (ticketsOfStand s n).foldl (paceTicket (pace.late * 1000) (pace.focus * 1000)) s
  .next ((showingStations s n).foldl (fun s2 st => displaceTest st s2) s1)

/-! ### Links (R133 to R135, R148) -/

/-- LINK_STATE_TKR (R133 to R135). Where several stations are stranded whose common fallback becomes LIVE, they move in rising station
number: R134 gives no order among them (DESIGN CHOICE, log entry 52). -/
def execLinkStateTkr (st : StationId) (state : LinkState) (count : Option Nat) (s0 : State) : Out :=
  let s := s0.taken (.linkStateTkr st state count)
  .next <|
    match state with
    | .dark | .offline => strandedMove st (returnShown st (fun _ => true) s)
    | .starting => strandedMove st s
    | .rejoining =>
      match count with
      | none => s
      | some n => fillAndTest st (returnShown st (fun k => decide (n ≤ k)) s)
    | .live => (relyingOn s st).foldl (fun s1 f => strandedMove f s1) (fillAndTest st s)

/-- FALLBACK_CHANGE_TKR (R157, R134). -/
def execFallbackChangeTkr (st : StationId) (s0 : State) : Out :=
  .next (strandedMove st (s0.taken (.fallbackChangeTkr st)))

/-- R148: the SHOW of each ticket shown at a station, in slot order. -/
def shownFrames (s : State) (st : StationId) : List Frame :=
  (s.queues st).shown.filterMap (fun i =>
    match s.ticketAt i with
    | none => none
    | some t => t.slot.map (showFrame (s.tagAt i) t))

/-- SHOWN_SET_ASK (R148). -/
def execShownSetAsk (st : StationId) (ask : Nat) (s0 : State) : Out :=
  let s := s0.taken (.shownSetAsk st ask)
  .next (s.hand (.refreshAnswer st ask (shownFrames s st)))

/-! ### Day close (R115) -/

/-- R115 step 1: a station's bumped tickets are freed. -/
def emptyBumped (s : State) (st : StationId) : State :=
  let q := s.queues st
  (q.bumped.foldl (fun s1 i => s1.freeRecord i) s).setQueues st { q with bumped := [] }

/-- R115 step 2: one WAITING or SHOWN ticket is cancelled. -/
def cancelTicket (st : StationId) (s : State) (i : Nat) : State :=
  match s.ticketAt i with
  | none => s
  | some t =>
    let s1 := (sendClear st t.slot s).freeRecord i
    match t.kind with
    | .order _ h _ => outLess h s1
    | .batch _ => cancelIfBatch t s1

/-- R115 step 2: a station's shown and waiting tickets are cancelled. R115 gives no order among the cancelled tickets: the shown go
first, in slot order, then the waiting, in key order (DESIGN CHOICE, log entry 51). -/
def cancelAll (s : State) (st : StationId) : State :=
  let q := s.queues st
  ((q.shown ++ q.waiting).foldl (cancelTicket st) s).setQueues st {}

/-- TKR_DAY_CLOSE (R115): the stations are taken from 0 to 23 (DESIGN CHOICE, log entry 51). No retry pass follows. -/
def execTkrDayClose (s0 : State) : Out :=
  .next ((List.finRange 24).foldl cancelAll ((List.finRange 24).foldl emptyBumped (s0.taken .tkrDayClose)))

/-! ### Requests (R131, R132, R137) -/

/-- R131, R132: the order ticket that a tag names, with its record; or the refusal. -/
def withOrderTicket (tag : Tag) (s : State) (k : Nat → Ticket → Out) : Out :=
  match s.ticket tag with
  | none => refuse .noTicket s
  | some t => if t.isOrder then k tag.index.toNat t else refuse .range s

/-- R132: the class is written and what follows for a WAITING or a SHOWN ticket. -/
def reclass (i : Nat) (t : Ticket) (cls : TicketClass) (s : State) : State :=
  let t1 := { t with cls := cls }
  match t.slot with
  | none => fillAndTest t.station (joinWaiting t.station i ((leaveWaiting t.station i s).setTicketAt i t1))
  | some k => displaceTest t.station (sendFrame t.station (showFrame (s.tagAt i) t1 k) (s.setTicketAt i t1))

/-- R132: the result words of PRIORITIZE: the ticket's state and slot. -/
def placeWords (s : State) (i : Nat) : List Word :=
  match s.ticketAt i with
  | none => []
  | some t => [Word.ofCount t.state.code, countWord t.slot]

/-- PRIORITIZE (R132). -/
def execPrioritize (r : Requester) (tag cls : Word) (s0 : State) : Out :=
  let s := s0.taken (.prioritize r tag cls)
  match tagOf tag, classOf cls with
  | some g, some c =>
    withOrderTicket g s (fun i t =>
      if t.state = .bumped then refuse .range s
      else if t.cls = c then finish (placeWords s i) s
      else
        let s1 := reclass i t c s
        finish (placeWords s1 i) s1)
  | _, _ => refuse .range s

/-- R131: the result words of RECALL_TICKET: the ticket's state, station and slot. -/
def recallWords (s : State) (i : Nat) : List Word :=
  match s.ticketAt i with
  | none => []
  | some t => [Word.ofCount t.state.code, Word.ofCount t.station.val, countWord t.slot]

/-- RECALL_TICKET (R131). -/
def execRecallTicket (r : Requester) (tag : Word) (s0 : State) : Out :=
  let s := s0.taken (.recallTicket r tag)
  match tagOf tag with
  | none => refuse .range s
  | some g =>
    withOrderTicket g s (fun i t =>
      if t.state = .bumped then
        let s1 := recallRecord i t s
        finish (recallWords s1 i) s1
      else refuse .range s)

/-- R137: the records of a station's tickets: the shown set, the waiting queue, the bumped list. -/
def stationRecords (s : State) (st : StationId) : List (List Byte) :=
  let q := s.queues st
  (q.shown ++ q.waiting ++ q.bumped).filterMap (fun i => (s.ticketAt i).map (ticketBytes (s.tagAt i)))

/-- R137: the whole records that fit in a room, from the first on. -/
def recordsFit : Nat → List (List Byte) → List (List Byte)
  | _, [] => []
  | room, b :: l => if b.length ≤ room then b :: recordsFit (room - b.length) l else []

/-- R137: what READ_STATION writes: the header and the records that fit. -/
def stationBytes (s : State) (st : StationId) (room : Nat) : List Byte :=
  stationHeader s st ++ (recordsFit (room - 16) (stationRecords s st)).flatten

/-- READ_STATION (R137). -/
def execReadStation (r : Requester) (station offset length : Word) (s0 : State) : Out :=
  let s := s0.taken (.readStation r station offset length)
  match stationOf station with
  | none => refuse .range s
  | some st =>
    if !s.bufferOk offset length then refuse .range s
    else if length.toNat < 16 then refuse .noRoom s
    else
      let all := stationRecords s st
      let fit := recordsFit (length.toNat - 16) all
      let bytes := stationBytes s st length.toNat
      finish [Word.ofCount bytes.length, Word.ofCount fit.length, Word.ofCount (all.length - fit.length)]
        (s.writeBytes offset.toNat bytes)

end Sys2Proof.Machine
end

