-- ==== Sys2Proof/Machine/BusErrors.lean ====
section
/-! DEFINITION. Bus errors (R187, R197): what a failed access to host memory does, by the access. How many bytes of a failed
write reached memory is for the bus to say, and is an operand (log entry 9). -/

namespace Sys2Proof.Machine

/-- R187: the read of the next slip fails. -/
def slipReadFails (s : State) : State :=
  match s.chainToWalk with
  | none => s
  | some head =>
    let p := s.placeIn head
    abandon (if s.slipPlace p.next then .busError else .slipRange) head p p.next s

/-- R187: the write of TAKEN fails: the request is not handed on. -/
def takenFails (reached : Bool) (head : Word) (p : Place) (s : State) : State :=
  abandon .busError head p p.next (if reached then writeOutcome p.next 1 0 s else s)

/-- R187: the next slip's TAKEN cannot be written. -/
def takenWriteFails (reached : Bool) (s : State) : State :=
  match s.chainToWalk with
  | none => s
  | some head => testSlip (takenFails reached head) head s

/-- The buffer that READ_CHECK would write, and its bytes, where its tests pass (R26). -/
def readCheckWrite (handle offset length : Word) (s : State) : Option (Nat × List Byte) :=
  match handleOf handle with
  | none => none
  | some h =>
    match s.check h with
    | none => none
    | some c =>
      if s.bufferOk offset length ∧ checkRecordLength c ≤ length.toNat then some (offset.toNat, checkRecord h c) else none

/-- The buffer that EXPORT_CLOSED would write, and its bytes (R29). -/
def exportWrite (offset length : Word) (s : State) : Option (Nat × List Byte) :=
  let written := exportFit s length.toNat s.cks.closedList
  if s.bufferOk offset length ∧ written ≠ [] then some (offset.toNat, written.flatMap Prod.snd) else none

/-- The buffer that READ_STATION would write, and its bytes (R137). -/
def readStationWrite (station offset length : Word) (s : State) : Option (Nat × List Byte) :=
  match stationOf station with
  | none => none
  | some st =>
    if s.bufferOk offset length ∧ 16 ≤ length.toNat then some (offset.toNat, stationBytes s st length.toNat) else none

/-- The buffer write that a command makes. -/
def bufferWriteOf (c : Instr) (s : State) : Option (Nat × List Byte) :=
  match c with
  | .readCheck _ handle offset length => readCheckWrite handle offset length s
  | .exportClosed _ offset length => exportWrite offset length s
  | .readStation _ station offset length => readStationWrite station offset length s
  | _ => none

/-- R187: the slip in work is abandoned with BUS_ERROR. -/
def abandonWork (w : Work) (s : State) : State :=
  match s.exu.chains.head? with
  | none => s
  | some head => abandon .busError head (s.placeIn head) w.offset s

/-- R187: a buffer write of the request in work fails: the request stops and changes no state, and its chain is abandoned. -/
def bufferWriteFails (reached : Nat) (s : State) : State :=
  match s.exu.inWork, s.handovers.find? (fun c => (bufferWriteOf c s).isSome) with
  | some w, some c =>
    match bufferWriteOf c s with
    | none => s
    | some (offset, bytes) => abandonWork w ((s.writeBytes offset (bytes.take reached)).taken c)
  | _, _ => s

/-- R187: the write of the body or of the outcome word fails: the request's effects stand, and the slip stays TAKEN. -/
def outcomeWriteFails (reached : Nat) (s : State) : State :=
  match s.exu.inWork, s.exu.answer with
  | some w, some a => abandonWork w (s.writeSlip w.offset 16 ((answerBody a).take reached))
  | _, _ => s

/-- BUS_ERROR (R187, R197): a failed access that the part is not about to make has no effect; a failure of the page's fill takes
effect at the next fill. -/
def execBusError (access : BusAccess) (s0 : State) : Out :=
  let s := s0.taken (.busError access)
  .next <|
    match access with
    | .slipRead => slipReadFails s
    | .takenWrite reached => takenWriteFails reached s
    | .bufferWrite reached => bufferWriteFails reached s
    | .outcomeWrite reached => outcomeWriteFails reached s
    | .pageFill reached => { s with ntc := { s.ntc with fillFails := some reached } }

end Sys2Proof.Machine
end

