-- ==== Sys2Proof/Machine/Demand.lean ====
section
/-! DEFINITION. Demand Watch (R159 to R175): the period counts, the filters, the levels and their announcements, SET_PACE and
READ_DEMAND. -/

namespace Sys2Proof.Machine

/-! ### Period counts (R160) -/

/-- R160: a quantity added; a count that would pass 65,535 stops there. -/
def Filter.add (f : Filter) (q : Nat) : Filter := { f with count := min Config.countMax (f.count + q) }

/-- R160: a quantity taken off; a count that would fall below 0 stops there. -/
def Filter.take (f : Filter) (q : Nat) : Filter := { f with count := f.count - q }

/-- A change of a stand's filter. -/
def mapStandFilter (n : StandId) (f : Filter → Filter) (s : State) : State :=
  s.setPace n { s.pace n with filter := f (s.pace n).filter }

/-- A change of a slot's filter, where a slot is named. -/
def mapSlotFilter (n : Option SlotId) (f : Filter → Filter) (s : State) : State :=
  match n with
  | none => s
  | some t => s.setDemand t (f (s.demand t))

/-- COUNT_ADD (R160). -/
def execCountAdd (stand : StandId) (slot : Option SlotId) (q : Nat) (s0 : State) : Out :=
  let s := s0.taken (.countAdd stand slot q)
  .next (mapSlotFilter slot (fun f => f.add q) (mapStandFilter stand (fun f => f.add q) s))

/-- COUNT_TAKE (R160). -/
def execCountTake (stand : StandId) (slot : Option SlotId) (q : Nat) (s0 : State) : Out :=
  let s := s0.taken (.countTake stand slot q)
  .next (mapSlotFilter slot (fun f => f.take q) (mapStandFilter stand (fun f => f.take q) s))

/-- PAIRING_CHANGE (R164): the slot's figures and period count become 0. -/
def execPairingChange (slot : SlotId) (s0 : State) : Out :=
  .next ((s0.taken (.pairingChange slot)).setDemand slot {})

/-! ### The filters (R162) -/

/-- R162: a figure moved towards a target by a part of 2 to the power k, the division taken downwards. -/
def moveTowards (figure target : Int) (k : Nat) : Nat := (figure + (target - figure) / (2 ^ k : Nat)).toNat

/-- R162: the fast figure moved towards sixteen times the count. -/
def moveFast (f : Filter) (kF : Nat) : Nat := moveTowards f.fast (16 * f.count) kF

/-- R162: the slow figure moved towards a fast figure. -/
def moveSlow (slow fast kL : Nat) : Nat := moveTowards slow fast kL

/-- R164: a batch slot's period closed: both figures move at every period. -/
def Filter.closed (f : Filter) (kF kL : Nat) : Filter :=
  let fast := moveFast f kF
  { count := 0, fast := fast, slow := moveSlow f.slow fast kL }

/-- R159: D is F − L. -/
def Filter.delta (f : Filter) : Int := (f.fast : Int) - f.slow

/-! ### Levels (R166, R167) -/

/-- R206: the causes of PACE_CHANGE, in the order of their codes. -/
inductive PaceCause where
  | rise
  | fall
  | forced
  deriving DecidableEq, Repr

def PaceCause.code : PaceCause → Nat
  | .rise => 0
  | .fall => 1
  | .forced => 2

/-- R166: the level a stand rises to, if it rises. -/
def riseTo (p : Pace) (d : Int) : Option Level :=
  match p.level with
  | .normal => if (p.rushOn : Int) ≤ d then some .rush else if (p.busyOn : Int) ≤ d then some .busy else none
  | .busy => if (p.rushOn : Int) ≤ d then some .rush else none
  | .rush => none

/-- R167: one level down. -/
def stepDown : Level → Level
  | .rush => .busy
  | .busy => .normal
  | .normal => .normal

/-- R167: the threshold a stand falls below: rush_off at RUSH, busy_off at BUSY. -/
def Pace.offThreshold (p : Pace) : Nat :=
  match p.level with
  | .rush => p.rushOff
  | _ => p.busyOff

/-- R167: the quiet count after a period: one more when D is below the threshold, otherwise 0. -/
def quietAfter (p : Pace) (d : Int) : Nat := if d < (p.offThreshold : Int) then p.quiet + 1 else 0

/-- R166, R167: the level evaluated from D, with the period in force in seconds. -/
def evaluateLevel (p : Pace) (d : Int) (period : Nat) : Pace :=
  match riseTo p d with
  | some l => { p with level := l, quiet := 0 }
  | none =>
    if p.level = .normal then { p with quiet := 0 }
    else if p.dwell ≤ quietAfter p d * period then { p with level := stepDown p.level, quiet := 0 }
    else { p with quiet := quietAfter p d }

/-- R163 step 3: the slow figure and the halt count: moved after a period that opened at NORMAL; held otherwise, and reseeded past
the halt limit. -/
def closeSlow (p : Pace) (fast : Nat) : Nat × Nat :=
  if p.opening = .normal then (moveSlow p.filter.slow fast p.kL, 0)
  else if p.haltLimit < p.halt + 1 then (fast, 0)
  else (p.filter.slow, p.halt + 1)

/-- R163: a stand's period closed, steps 1 to 6. -/
def Pace.closed (p : Pace) (period : Nat) : Pace :=
  let fast := moveFast p.filter p.kF
  let slow := closeSlow p fast
  let f : Filter := { count := 0, fast := fast, slow := slow.1 }
  let p1 := { p with filter := f, halt := slow.2 }
  let p2 := if p.forced then { p1 with quiet := 0 } else evaluateLevel p1 f.delta period
  { p2 with opening := p2.level }

/-- R168: a stand's change of level: the notice, the router, and ISU. The announcement to the router brings the focus minimum and the
late limit as they now stand (R174). R168 asks for no order among the three: DESIGN CHOICE, log entry 62. -/
def announceLevel (n : StandId) (previous : Level) (cause : PaceCause) (s : State) : State :=
  let p := s.pace n
  s.handAll
    [.noticeRaise
        { kind := .paceChange, subject := Word.ofCount n.val,
          values := [Word.ofCount p.level.code, Word.ofCount previous.code, Word.ofCount cause.code,
            Word.ofCount p.filter.fast, Word.ofCount p.filter.slow] },
      .paceChangeTkr n ⟨p.level, p.focus p.level, p.lateLimit p.level⟩, .paceChangeIsu n p.level]

/-- R163, R168: one stand's period is closed, and a change of its level announced. -/
def closeStand (s : State) (n : StandId) : State :=
  let old := s.pace n
  let new := old.closed s.dmw.period
  let s1 := s.setPace n new
  if new.level = old.level then s1
  else announceLevel n old.level (if old.level.code < new.level.code then .rise else .fall) s1

/-- R164: one slot's period is closed, with the filter strengths of its home stand. -/
def closeSlotPeriod (s : State) (t : SlotId) : State :=
  let p := s.pace (s.batch t).home
  s.setDemand t ((s.demand t).closed p.kF p.kL)

/-- R161 steps 1 and 2: a pending period takes force, clearing every quiet count, and the timer is loaded. -/
def loadSample (s : State) : State :=
  match s.dmw.pendingPeriod with
  | none => { s with dmw := { s.dmw with sampleDue := s.dueIn s.dmw.period } }
  | some n =>
    let s1 := (List.finRange 16).foldl (fun s1 st => s1.setPace st { s1.pace st with quiet := 0 }) s
    { s1 with dmw := { s1.dmw with period := n, pendingPeriod := none, sampleDue := s1.dueIn n } }

/-- SAMPLE_TIMER_EXPIRY (R161). The stands are closed and announced from 0 to 15; R168 gives their changes no order (DESIGN CHOICE, log
entry 62). -/
def execSampleTimerExpiry (s0 : State) : Out :=
  let s := (s0.taken .sampleTimerExpiry).advanceTo s0.dmw.sampleDue
  .next (loadSample ((List.finRange 16).foldl closeStand ((List.finRange 32).foldl closeSlotPeriod s)))

/-! ### SET_PACE (R169 to R172) -/

/-- R169: the PERIOD section. -/
def setPeriod (w : Word) (s : State) : Out :=
  match within 5 60 w with
  | none => refuse .range s
  | some n =>
    let pending := if n = s.dmw.period then none else some n
    finish [Word.ofCount s.dmw.period, Word.ofCount (pending.getD 0)] { s with dmw := { s.dmw with pendingPeriod := pending } }

/-- R165: the four thresholds stand in their order. -/
def thresholdsOk (busyOn busyOff rushOn rushOff : Nat) : Bool :=
  decide (busyOff < busyOn) && decide (busyOn ≤ rushOff) && decide (rushOff < rushOn)

/-- R170: the LEVELS section. -/
def setLevels (n : StandId) (busyOn busyOff rushOn rushOff dwell haltLimit kF kL : Word) (s : State) : Out :=
  match within 0 Config.figureMax busyOn, within 0 Config.figureMax busyOff, within 0 Config.figureMax rushOn,
    within 0 Config.figureMax rushOff, within 10 600 dwell, within 1 360 haltLimit, within 0 4 kF, within 4 8 kL with
  | some bn, some bf, some rn, some rf, some dw, some hl, some f, some l =>
    if thresholdsOk bn bf rn rf then
      finish [] (s.setPace n
        { s.pace n with busyOn := bn, busyOff := bf, rushOn := rn, rushOff := rf, dwell := dw, haltLimit := hl, kF := f, kL := l })
    else refuse .range s
  | _, _, _, _, _, _, _, _ => refuse .range s

/-- R171: the TIMES section: a change of the values in force is announced to the router. -/
def setTimes (n : StandId) (f0 f1 f2 l0 l1 l2 : Word) (s : State) : Out :=
  match within 5 120 f0, within 5 120 f1, within 5 120 f2, within 60 1800 l0, within 60 1800 l1, within 60 1800 l2 with
  | some a, some b, some c, some d, some e, some f =>
    let old := s.pace n
    let new := { old with focusNormal := a, focusBusy := b, focusRush := c, lateNormal := d, lateBusy := e, lateRush := f }
    let s1 := s.setPace n new
    finish []
      (if new.focus new.level = old.focus old.level ∧ new.lateLimit new.level = old.lateLimit old.level then s1
        else s1.hand (.paceChangeTkr n ⟨new.level, new.focus new.level, new.lateLimit new.level⟩))
  | _, _, _, _, _, _ => refuse .range s

/-- R172: the result words of the FORCE section. -/
def forceResults (p : Pace) : List Word := [Word.ofCount p.level.code, boolWord p.forced]

/-- R172: the FORCE section: a level forced, or RELEASE 3. -/
def setForce (n : StandId) (w : Word) (s : State) : Out :=
  let old := s.pace n
  if w = 3 then
    let new := if old.forced then { old with forced := false, quiet := 0 } else old
    finish (forceResults new) (s.setPace n new)
  else
    match levelOf w with
    | none => refuse .range s
    | some l =>
      let new := { old with forced := true, quiet := 0, level := l }
      let s1 := s.setPace n new
      finish (forceResults new) (if l = old.level then s1 else announceLevel n old.level .forced s1)

/-- SET_PACE (R169). -/
def execSetPace (r : Requester) (sect w1 w2 w3 w4 w5 w6 w7 w8 w9 : Word) (s0 : State) : Out :=
  let s := s0.taken (.setPace r sect w1 w2 w3 w4 w5 w6 w7 w8 w9)
  if r.authority ≠ .supervisor then refuse .authority s
  else if sect = 0 then setPeriod w1 s
  else
    match standOf w1 with
    | none => refuse .range s
    | some n =>
      if sect = 1 then setLevels n w2 w3 w4 w5 w6 w7 w8 w9 s
      else if sect = 2 then setTimes n w2 w3 w4 w5 w6 w7 s
      else if sect = 3 then setForce n w2 s
      else refuse .range s

/-! ### READ_DEMAND (R173) -/

/-- R173: the words that a stand and a slot have in common at the end: the period, the time to the next expiry, the pending one. -/
def periodWords (s : State) : List Word :=
  [Word.ofCount s.dmw.period, Word.ofCount (s.dmw.sampleDue - s.uptime), Word.ofCount (s.dmw.pendingPeriod.getD 0)]

/-- R173: F, L, D and the count of the period in progress. -/
def filterWords (f : Filter) : List Word :=
  [Word.ofCount f.fast, Word.ofCount f.slow, Word.ofSigned f.delta, Word.ofCount f.count]

/-- READ_DEMAND (R173). -/
def execReadDemand (r : Requester) (kind number : Word) (s0 : State) : Out :=
  let s := s0.taken (.readDemand r kind number)
  if kind = 0 then
    match standOf number with
    | none => refuse .range s
    | some n =>
      let p := s.pace n
      finish (filterWords p.filter ++
        [Word.ofCount p.level.code, Word.ofCount p.opening.code, Word.ofCount p.quiet, Word.ofCount p.halt, boolWord p.forced] ++
        periodWords s) s
  else if kind = 1 then
    match slotOf number with
    | none => refuse .range s
    | some t => finish (filterWords (s.demand t) ++ [0, 0, 0, 0, 0] ++ periodWords s) s
  else refuse .range s

/-! ### Reset and day close (R175) -/

/-- R175: a stand's record at soft reset and CLOSE_DAY: the settings kept, the figures 0, the level NORMAL. -/
def resetPace (p : Pace) : Pace :=
  { p with filter := {}, level := .normal, opening := .normal, quiet := 0, halt := 0, forced := false }

/-- R175: Demand Watch at soft reset and CLOSE_DAY. The full period is counted from the moment DMW takes it, also where the day clock
was returned to 0 before (DEDUCED, log entry 69). -/
def dmwReset (s : State) : State :=
  let s1 := (List.finRange 16).foldl (fun s1 st => s1.setPace st (resetPace (s1.pace st))) s
  let period := s1.dmw.pendingPeriod.getD s1.dmw.period
  { s1 with dmw := { s1.dmw with filters := [], period := period, pendingPeriod := none, sampleDue := s1.dueIn period } }

/-- DMW_DAY_CLOSE (R175). -/
def execDmwDayClose (s0 : State) : Out := .next (dmwReset (s0.taken .dmwDayClose))

end Sys2Proof.Machine
end

