-- ==== Sys2Proof/Machine/Items.lean ====
section
/-! DEFINITION. The requests and events of the Item and Stock Unit (spec/04_items_stock_and_warmers.md). -/

namespace Sys2Proof.Machine

/-! ### SET_ITEM (R67) -/

/-- R67 step 3: turning tracking off, or clearing defined, while units are reserved. A request clears defined where the item is
defined and the operand is no; a no for an item already undefined clears nothing, and is not refused for it (DESIGN CHOICE, log entry
48). -/
def itemReserved (i : Item) (isDefined tracked : Bool) : Bool :=
  decide (0 < i.reserved) && ((i.tracked && !tracked) || (i.isDefined && !isDefined))

/-- R67, R68, R89: a SET_ITEM that has passed its tests. -/
def writeItem (x : ItemId) (new : Item) (slot : Option SlotId) (s : State) : State :=
  let old := s.item x
  let s1 := pairItem x slot (s.setItem x { new with onHand := old.onHand, reserved := old.reserved, slot := old.slot })
  if new.prepRoute = old.prepRoute then s1 else gateTestAll s1

/-- SET_ITEM (R67). -/
def execSetItem (r : Requester) (item isDefined price taxClass prepRoute restricted tracked lowMark slot : Word) (s0 : State) :
    Out :=
  let s := s0.taken (.setItem r item isDefined price taxClass prepRoute restricted tracked lowMark slot)
  if r.authority ≠ .supervisor then refuse .authority s
  else
    match itemOf item, yesNo isDefined, within 0 99999 price, finOf 4 taxClass, finOf 8 prepRoute, yesNo restricted,
      yesNo tracked, within 0 65535 lowMark, finOrNone 32 slot with
    | some x, some d, some p, some tc, some pr, some re, some tr, some lm, some sl =>
      if tr ∧ sl.isSome then refuse .range s
      else if itemReserved (s.item x) d tr then refuse .itemBusy s
      else if !itemPairingOk s x sl then refuse .itemBusy s
      else
        finish []
          (writeItem x { isDefined := d, price := p, taxClass := tc, prepRoute := pr, restricted := re, tracked := tr,
                         lowMark := lm } sl s)
    | _, _, _, _, _, _, _, _, _ => refuse .range s

/-! ### SET_BATCH (R76, R77) -/

/-- R77: a slot's timers after a SET_BATCH, by its mode before; the slot already holds the new configuration. -/
def setTimers (t : SlotId) (before : BatchMode) (s : State) : State :=
  let b := s.batch t
  let e := effective s t
  match b.mode with
  | .paced =>
    if before = .paced then s.setBatch t { b with pendingInterval := pendingFor b.cycle e, leadTimer := .idle }
    else
      s.setBatch t
        { b with batchTimer := loadTimer s t (e * 1000), cycle := e, pendingInterval := none, leadTimer := .idle }
  | .onDemand => s.setBatch t { b with batchTimer := .idle, pendingInterval := none }
  | .off => s.setBatch t { b with batchTimer := .idle, pendingInterval := none, leadTimer := .idle }

/-- R76: the configuration that SET_BATCH writes; the pairing is made apart. -/
structure BatchSettings where
  mode : BatchMode
  home : StandId
  interval : Nat
  baseSize : Nat
  capacity : Nat
  life : Nat
  lowMark : Nat
  leadDelay : Nat
  deriving DecidableEq, Repr

/-- R76: a slot with the settings written. -/
def Batch.configured (b : Batch) (f : BatchSettings) : Batch :=
  { b with mode := f.mode, home := f.home, interval := f.interval, baseSize := f.baseSize, capacity := f.capacity,
           life := f.life, lowMark := f.lowMark, leadDelay := f.leadDelay }

/-- R76, R77: a SET_BATCH that has passed its tests. A batch made at once is sized from the slot's figure as Demand Watch holds it while
the PAIRING_CHANGE of the same event still waits (DESIGN CHOICE, log entry 65). A change of the home stand leaves the focus timer of a
batch ticket that is shown as it is (DESIGN CHOICE, log entry 71). -/
def writeBatch (t : SlotId) (item : Option ItemId) (f : BatchSettings) (s : State) : State :=
  let before := (s.batch t).mode
  let s1 := pairSlot t item s
  let s2 := setTimers t before (s1.setBatch t ((s1.batch t).configured f))
  gateTestSlot (askIf t (lowTest t s2)) t

/-- R76 steps 3 to 5 for the item and the slot. -/
def batchRefusal (s : State) (t : SlotId) (item : Option ItemId) (capacity : Nat) : Option Reason :=
  if item.any (fun x => !(s.item x).isDefined) then some .noItem
  else if !slotPairingOk s t item then some .itemBusy
  else if capacity < (s.batch t).ready then some .itemBusy
  else none

/-- R76 step 2: what is out of range beyond the ranges of R75. -/
def batchOutOfRange (s : State) (item : Option ItemId) (mode : BatchMode) (home : StandId) : Bool :=
  (decide (mode ≠ .off) && item.isNone) || !(s.stand home).configured || item.any (fun x => (s.item x).tracked)

/-- SET_BATCH (R76). -/
def execSetBatch (r : Requester) (slot item mode home interval baseSize capacity life lowMark leadDelay : Word) (s0 : State) :
    Out :=
  let s := s0.taken (.setBatch r slot item mode home interval baseSize capacity life lowMark leadDelay)
  if r.authority ≠ .supervisor then refuse .authority s
  else
    match slotOf slot, finOrNone 2048 item, batchModeOf mode, standOf home, within 60 3600 interval, within 1 99 baseSize,
      within 1 999 capacity, within 60 3600 life, within 0 999 lowMark, within 0 600 leadDelay with
    | some t, some x, some m, some st, some iv, some bs, some cap, some li, some lm, some ld =>
      if batchOutOfRange s x m st then refuse .range s
      else
        match batchRefusal s t x cap with
        | some reason => refuse reason s
        | none =>
          finish []
            (writeBatch t x { mode := m, home := st, interval := iv, baseSize := bs, capacity := cap, life := li, lowMark := lm,
                              leadDelay := ld } s)
    | _, _, _, _, _, _, _, _, _, _ => refuse .range s

/-! ### Stock requests (R73, R74) -/

/-- The refusals of RECEIVE_STOCK and COUNT_STOCK past the ranges: an undefined item, then one not stock-tracked. -/
def stockRefusal (i : Item) : Option Reason :=
  if !i.isDefined then some .noItem else if !i.tracked then some .range else none

/-- RECEIVE_STOCK (R73). -/
def execReceiveStock (r : Requester) (item quantity : Word) (s0 : State) : Out :=
  let s := s0.taken (.receiveStock r item quantity)
  match itemOf item, within 1 65535 quantity with
  | some x, some q =>
    let i := s.item x
    match stockRefusal i with
    | some reason => refuse reason s
    | none =>
      let new := { i with onHand := min 65535 (i.onHand + q) }
      finish [Word.ofCount new.onHand, Word.ofCount new.available, Word.ofCount (i.onHand + q - 65535)] (s.changeStock x new)
  | _, _ => refuse .range s

/-- COUNT_STOCK (R74). -/
def execCountStock (r : Requester) (item count : Word) (s0 : State) : Out :=
  let s := s0.taken (.countStock r item count)
  match itemOf item, within 0 65535 count with
  | some x, some n =>
    let i := s.item x
    match stockRefusal i with
    | some reason => refuse reason s
    | none =>
      let new := { i with onHand := max n i.reserved }
      let s1 := if n < i.reserved then s.raise .stockShort (Word.ofCount x.val) [Word.ofCount (i.reserved - n)] else s
      finish [Word.ofCount new.onHand, Word.ofCount new.available, Word.ofCount (i.reserved - n)] (s1.changeStock x new)
  | _, _ => refuse .range s

/-! ### RESTART_BATCH (R90) -/

/-- R90: the timers of a slot restarted: a PACED slot's batch timer is loaded, an ON_DEMAND slot's lead timer is IDLE. -/
def restartTimers (t : SlotId) (s : State) : State :=
  let b := s.batch t
  let e := effective s t
  if b.mode = .paced then
    s.setBatch t { b with batchTimer := loadTimer s t (e * 1000), cycle := e, pendingInterval := none }
  else s.setBatch t { b with leadTimer := .idle }

/-- R90: the result words of RESTART_BATCH. Word 1 is the tag of a ticket made; where none was made word 0 is the last result word,
and every later body word is 0 (R182). -/
def batchResult (code : Nat) (tag : Option Tag) (s : State) : Out :=
  finish (Word.ofCount code :: (tag.map Tag.toWord).toList) s

/-- RESTART_BATCH (R90). -/
def execRestartBatch (r : Requester) (slot issueNow : Word) (s0 : State) : Out :=
  let s := s0.taken (.restartBatch r slot issueNow)
  match slotOf slot, yesNo issueNow with
  | some t, some now =>
    if (s.batch t).mode = .off then refuse .range s
    else
      let s1 := restartTimers t s
      if now then
        match makeBatch t (effective s1 t) s1 with
        | (s2, code, tag) => batchResult code tag s2
      else batchResult 0 none s1
  | _, _ => refuse .range s

/-! ### READ_ITEM (R69, R208) -/

/-- R208: result word 1. -/
def itemFlagsWord (i : Item) : Word :=
  Word.ofCount i.taxClass.val ||| (Word.ofCount i.prepRoute.val <<< 8) ||| (boolWord i.isDefined <<< 16) |||
    (boolWord i.restricted <<< 17) ||| (boolWord i.tracked <<< 18)

/-- R208: result word 7. -/
def slotStateWord (b : Batch) : Word :=
  Word.ofCount b.mode.code ||| (Word.ofCount b.batchTimer.code <<< 8) ||| (Word.ofCount b.leadTimer.code <<< 16)

/-- R69: result words 7 to 11. Word 10 is the lead timer's remaining time while that timer is not IDLE; words 8 to 10 of an item
with no slot are free values (log entry 18). -/
def itemSlotWords (s : State) : Option SlotId → List Word
  | none =>
    [0, Config.freeWord s.freeValues, Config.freeWord (s.freeValues + 1), Config.freeWord (s.freeValues + 2), Word.absent]
  | some t =>
    let b := s.batch t
    let timer := if b.leadTimer = .idle then b.batchTimer else b.leadTimer
    [slotStateWord b, Word.ofCount b.ready, Word.ofCount b.lots.length, Word.ofCount (timer.left s.uptime), tagWord b.outstanding]

/-- R69: the result words of READ_ITEM. -/
def itemWords (s : State) (x : ItemId) : List Word :=
  let i := s.item x
  [Word.ofCount i.price, itemFlagsWord i, Word.ofCount i.onHand, Word.ofCount i.reserved,
    if i.tracked then Word.ofCount i.available else 0, Word.ofCount i.lowMark, countWord (i.slot.map Fin.val)] ++
    itemSlotWords s i.slot

/-- READ_ITEM (R69). -/
def execReadItem (r : Requester) (item : Word) (s0 : State) : Out :=
  let s := s0.taken (.readItem r item)
  match itemOf item with
  | none => refuse .range s
  | some x => finish (itemWords s x) (if (s.item x).slot.isNone then s.useFree 3 else s)

/-! ### The stock asks as commands of their own (R72) -/

/-- RESERVE (R72). -/
def execReserve (x : ItemId) (q : Nat) (s0 : State) : Out :=
  let s := s0.taken (.reserve x q)
  match reserveAsk x q s with
  | none => .next (s.askAnswered .outOfStock)
  | some s1 => .next (s1.askAnswered .taken)

/-- RELEASE (R72). -/
def execRelease (x : ItemId) (q : Nat) (s0 : State) : Out :=
  .next ((releaseAsk x q (s0.taken (.release x q))).askAnswered .taken)

/-- COMMIT (R72). -/
def execCommit (x : ItemId) (q : Nat) (s0 : State) : Out :=
  .next ((commitAsk x q (s0.taken (.commit x q))).askAnswered .taken)

/-- UNCOMMIT (R72): where neither count changes, the line's stock mark is cleared. -/
def execUncommit (ref : LineRef) (x : ItemId) (q : Nat) (s0 : State) : Out :=
  match uncommitAsk x q (s0.taken (.uncommit ref x q)) with
  | (s1, true) => .next (s1.askAnswered .taken)
  | (s1, false) => .next ((s1.mapLine ref (fun l => { l with stockMark := false })).askAnswered .markCleared)

/-! ### Warmers (R79 to R82) -/

/-- WARMER_DRAW (R79). -/
def execWarmerDraw (t : SlotId) (q : Nat) (s0 : State) : Out :=
  match warmerDraw t q (s0.taken (.warmerDraw t q)) with
  | (s1, true, ask) => .next ((askIf t (s1, ask)).askAnswered .drawServed)
  | (s1, false, _) => .next (s1.askAnswered .drawRefused)

/-- BATCH_BUMP (R80, R88). -/
def execBatchBump (t : SlotId) (q : Nat) (s0 : State) : Out := .next (askIf t (batchBumped t q (s0.taken (.batchBump t q))))

/-- BATCH_CANCEL (R87, R88). -/
def execBatchCancel (t : SlotId) (s0 : State) : Out :=
  let s := s0.taken (.batchCancel t)
  .next (askIf t (lowTest t (s.setBatch t { s.batch t with outstanding := none })))

/-- VOID_RETURN (R81). -/
def execVoidReturn (x : ItemId) (slot : Option SlotId) (q : Nat) (s0 : State) : Out :=
  .next (voidReturned x slot q (s0.taken (.voidReturn x slot q)))

/-- LOT_EXPIRY (R82): the slot's lot that expires first (log entry 25); a slot with no lot has none to expire. -/
def execLotExpiry (t : SlotId) (s0 : State) : Out :=
  let s := s0.taken (.lotExpiry t)
  match firstToExpire s (s.batch t).lots with
  | none => .next s
  | some (i, l) => .next (askIf t (lotExpired t i l (s.advance (s.msUntil l.expiry))))

/-! ### Timers, pace and gates (R85 to R89) -/

/-- R86 steps 1 and 2: the batch timer of a slot is loaded again, with the pending interval if there is one. -/
def reloadBatchTimer (t : SlotId) (s : State) : State :=
  let b := s.batch t
  let cycle := b.pendingInterval.getD b.cycle
  s.setBatch t { b with cycle := cycle, pendingInterval := none, batchTimer := .running (s.uptime + cycle * 1000) }

/-- BATCH_TIMER_EXPIRY (R86): a timer that is not RUNNING does not expire. -/
def execBatchTimerExpiry (t : SlotId) (s0 : State) : Out :=
  let s := s0.taken (.batchTimerExpiry t)
  match (s.batch t).batchTimer with
  | .running due =>
    let s1 := reloadBatchTimer t (s.advanceTo due)
    .next (makeBatch t (s1.batch t).cycle s1).1
  | _ => .next s

/-- LEAD_TIMER_EXPIRY (R88). -/
def execLeadTimerExpiry (t : SlotId) (s0 : State) : Out :=
  let s := s0.taken (.leadTimerExpiry t)
  match (s.batch t).leadTimer with
  | .running due =>
    let s1 := s.advanceTo due
    let s2 := s1.setBatch t { s1.batch t with leadTimer := .idle }
    .next (makeBatch t (effective s2 t) s2).1
  | _ => .next s

/-- R85: the pending effective interval of a PACED slot of the stand whose level changed. -/
def takeFactor (n : StandId) (s : State) (t : SlotId) : State :=
  let b := s.batch t
  if b.mode = .paced ∧ b.home = n then s.setBatch t { b with pendingInterval := pendingFor b.cycle (effective s t) } else s

/-- PACE_CHANGE_ISU (R85). -/
def execPaceChangeIsu (n : StandId) (level : Level) (s0 : State) : Out :=
  .next ((List.finRange 32).foldl (takeFactor n) ((s0.taken (.paceChangeIsu n level)).setFactor n level))

/-- GATE_TEST (R89). -/
def execGateTest (s0 : State) : Out := .next (gateTestAll (s0.taken .gateTest))

/-- ISU_DAY_CLOSE (R92). -/
def execIsuDayClose (s0 : State) : Out := .next (dayCloseSlots (s0.taken .isuDayClose))

end Sys2Proof.Machine
end

