-- ==== Sys2Proof/Machine/Links.lean ====
section
/-! DEFINITION. The Station Link Controller (R139 to R158): sending and answering, the outbox, refreshes, rejoins, the receiver,
and the meanings of the commands that reach it. -/

namespace Sys2Proof.Machine

/-! ### The line (R144, R145) -/

/-- A frame in flight is being sent: its last byte has not left. -/
def Link.transmitting (l : Link) : Bool :=
  match l.inFlight with
  | none => false
  | some f => !f.sent

/-- Frames flow: LIVE or REJOINING. -/
def Link.inService (l : Link) : Bool := decide (l.state = .live) || decide (l.state = .rejoining)

/-- R149: the answers that may be sent: those before the first key that still waits for its decision. -/
def readyAnswers : List (Option StatusCode) → List StatusCode
  | some c :: l => c :: readyAnswers l
  | _ => []

/-- The answers that remain once the ready ones have been sent. -/
def heldAnswers : List (Option StatusCode) → List (Option StatusCode)
  | some _ :: l => heldAnswers l
  | l => l

/-- R145: answers go at once, but not while a frame is being sent. -/
def Link.sendAnswers (l : Link) : Link :=
  if l.transmitting then l
  else { l with wire := l.wire ++ (readyAnswers l.answers).map (fun c => frameBytes (.status c)), answers := heldAnswers l.answers }

/-- R145: a frame is put in flight and sent. -/
def Link.launch (l : Link) (f : Frame) (isProbe rejoin : Bool) : Link :=
  { l with inFlight := some { frame := f, isProbe := isProbe, rejoin := rejoin, sent := false }, statusDue := none, busyDue := none,
           wire := l.wire ++ [frameBytes f] }

/-- R145: the frame at the head of the outbox goes into flight whenever it may; the counts become 0. -/
def Link.takeFlight (l : Link) : Link :=
  if l.inService ∧ l.inFlight.isNone ∧ !l.refreshAwaited then
    match l.outbox with
    | [] => l
    | f :: rest => ({ l with outbox := rest, failures := 0, busies := 0 } : Link).launch f.frame false f.rejoin
  else l

/-- R145: what may start now does: the answers first, then the next frame. -/
def Link.pump (l : Link) : Link := l.sendAnswers.takeFlight

/-- R149: an answer joins those that wait their turn. -/
def Link.answer (l : Link) (code : StatusCode) : Link := { l with answers := l.answers ++ [some code] }

/-- R146: the frame in flight is sent again; the status timer is loaded when it has left. -/
def Link.resend (l : Link) : Link :=
  match l.inFlight with
  | none => l
  | some f => { l with inFlight := some { f with sent := false }, statusDue := none, busyDue := none, wire := l.wire ++ [frameBytes f.frame] }

/-- What may start on a station's line does. -/
def pumpLink (st : StationId) (s : State) : State := s.setLink st (s.link st).pump

/-! ### Announcements (R156) -/

/-- R156: the causes of a STATION_STATE, in the order of their codes (R206). -/
inductive LinkCause where
  | setStation
  | hello
  | probeAnswer
  | refreshDone
  | noAnswer
  | busyLimit
  deriving DecidableEq, Repr

def LinkCause.code : LinkCause → Nat
  | .setStation => 0
  | .hello => 1
  | .probeAnswer => 2
  | .refreshDone => 3
  | .noAnswer => 4
  | .busyLimit => 5

/-- R156: a link whose state was `previous` is announced as it now stands: to the router, to ISU, and by a notice (in that order:
DESIGN CHOICE, log entry 61). -/
def announce (st : StationId) (previous : LinkState) (cause : LinkCause) (count : Option Nat) (s : State) : State :=
  let l := s.link st
  s.handAll
    [.linkStateTkr st l.state count, .gateTest,
      .noticeRaise
        { kind := .stationState, subject := Word.ofCount st.val,
          values := [Word.ofCount l.state.code, Word.ofCount previous.code, Word.ofCount cause.code, Word.ofCount l.count] }]

/-- R152: the link goes DARK. -/
def goDark (st : StationId) (cause : LinkCause) (s : State) : State :=
  let l := s.link st
  announce st l.state cause none
    (s.setLink st
      { l with state := .dark, inFlight := none, outbox := [], refreshAwaited := false, failures := 0, busies := 0,
               statusDue := none, busyDue := none, probeDue := some (s.uptime + Config.probeTime) })

/-! ### Refresh (R148) and rejoin (R154, R155) -/

/-- R148: a request for a refresh: in LIVE and REJOINING, unless one is awaited, the outbox is emptied and the shown set asked. -/
def requestRefresh (st : StationId) (s : State) : State :=
  let l := s.link st
  if l.inService ∧ !l.refreshAwaited then
    (s.setLink st { l with outbox := [], refreshAwaited := true, askNo := l.askNo + 1 }).hand (.shownSetAsk st (l.askNo + 1))
  else s

/-- R148: the frames of a refresh; the last carries the rejoin mark given. -/
def refreshFrames (mark : Bool) (shows : List Frame) : List OutFrame :=
  let fs := Frame.clearAll :: shows
  fs.zipIdx.map (fun e => { frame := e.1, rejoin := mark && decide (e.2 + 1 = fs.length) })

/-- R154 steps 2 to 7, R153: a rejoin starts, with a slot count in force and a reported count; a fresh ask supersedes any other. -/
def startRejoin (st : StationId) (reported : Option Nat) (count : Nat) (cause : LinkCause) (s : State) : State :=
  let l := s.link st
  (announce st l.state cause (some count)
    (s.setLink st
      { l with state := .rejoining, reported := reported, count := count, inFlight := none, statusDue := none, busyDue := none,
               failures := 0, busies := 0, probeDue := none, outbox := [], refreshAwaited := true, askNo := l.askNo + 1 })).hand
    (.shownSetAsk st (l.askNo + 1))

/-- R155: the rejoin completes: the link is LIVE. -/
def completeRejoin (st : StationId) (s : State) : State :=
  let l := s.link st
  announce st l.state .refreshDone none (s.setLink st { l with state := .live })

/-- R146: the frame in flight is complete; where it carried the rejoin mark, the rejoin completes. A resend that ACK or STALE answers
before its last byte has left frees the line at once (DESIGN CHOICE, log entry 72). -/
def completeFrame (st : StationId) (f : Flight) (s : State) : State :=
  let s1 := s.setLink st { s.link st with inFlight := none, statusDue := none, failures := 0, busies := 0 }
  if f.rejoin then completeRejoin st s1 else s1

/-- R146: a failure of the frame in flight: sent again at the first, DARK at the second. -/
def flightFailed (st : StationId) (s : State) : State :=
  let l := s.link st
  if l.failures = 0 then s.setLink st ({ l with failures := 1, busies := 0 } : Link).resend
  else goDark st .noAnswer s

/-- R146: BUSY: the link goes DARK at the tenth in a row, and waits otherwise. A resend that BUSY answers before its last byte has left
counts as left: the busy wait is loaded at once (DESIGN CHOICE, log entry 72). -/
def flightBusy (st : StationId) (f : Flight) (s : State) : State :=
  let l := s.link st
  if Config.busyLimit ≤ l.busies + 1 then goDark st .busyLimit s
  else
    s.setLink st
      { l with inFlight := some { f with sent := true }, failures := 0, busies := l.busies + 1, statusDue := none,
               busyDue := some (s.uptime + Config.statusLimit) }

/-- R146: what an answer does to the frame in flight. -/
def flightAnswered (st : StationId) (f : Flight) (code : StatusCode) (s : State) : State :=
  match code with
  | .ack => completeFrame st f s
  | .stale => requestRefresh st (completeFrame st f s)
  | .nakCheck => flightFailed st s
  | .badFrame => flightFailed st s
  | .busy => flightBusy st f s

/-- R153: the end of a PROBE: an ACK starts a rejoin; any other answer keeps the state. -/
def probeAnswered (st : StationId) (ack : Bool) (s : State) : State :=
  let l := s.link st
  if ack then startRejoin st l.reported (l.reported.getD l.hint) .probeAnswer s
  else s.setLink st { l with inFlight := none, statusDue := none }

/-- R146, R147: a STATUS answers the frame in flight while its status timer runs, or while its resend is being sent
(log entry 12). -/
def Link.answerable (l : Link) : Bool := l.statusDue.isSome || (l.transmitting && decide (l.failures ≠ 0))

/-! ### The meanings -/

/-- KEY_FRAME (R149, R150). -/
def execKeyFrame (st : StationId) (body : List Byte) (checkOk : Bool) (s0 : State) : Out :=
  let s := s0.taken (.keyFrame st body checkOk)
  let l := s.link st
  let reply := fun code => pumpLink st (s.setLink st (l.answer code))
  .next <|
    if l.state = .offline then s
    else if !checkOk then reply .nakCheck
    else
      match body with
      | [key, b0, b1] =>
        if key ≠ 1 ∧ key ≠ 2 then reply .badFrame
        else if l.inService then
          (s.setLink st { l with answers := l.answers ++ [none] }).hand
            (if key = 1 then .bump st (tagOfBytes b0 b1) else .recall st (tagOfBytes b0 b1))
        else reply .stale
      | _ => reply .badFrame

/-- The first key that waits for its decision gets it (R149, R150). -/
def decideKey (code : StatusCode) : List (Option StatusCode) → List (Option StatusCode)
  | [] => []
  | none :: l => some code :: l
  | some c :: l => some c :: decideKey code l

/-- KEY_ANSWER (R150): the decision is sent as the key's answer; with no key waiting there is none to answer. -/
def execKeyAnswer (st : StationId) (code : StatusCode) (s0 : State) : Out :=
  let s := s0.taken (.keyAnswer st code)
  let l := s.link st
  .next (pumpLink st (s.setLink st { l with answers := decideKey code l.answers }))

/-- R141: a HELLO's slot count, clamped to 4..8. -/
def clampCount (b : Byte) : Nat := min 8 (max 4 b.toNat)

/-- HELLO (R154). -/
def execHello (st : StationId) (body : List Byte) (checkOk : Bool) (s0 : State) : Out :=
  let s := s0.taken (.hello st body checkOk)
  let l := s.link st
  .next <|
    if l.state = .offline then s
    else if !checkOk then pumpLink st (s.setLink st (l.answer .nakCheck))
    else
      match body with
      | [b] => pumpLink st (startRejoin st (some (clampCount b)) (clampCount b) .hello (s.setLink st (l.answer .ack)))
      | _ => pumpLink st (s.setLink st (l.answer .badFrame))

/-- STATUS (R146, R153). A wrong check byte is discarded, but ends a PROBE; a body that is not one byte, or is no code, is no
answer (R146, R209). -/
def execStatus (st : StationId) (body : List Byte) (checkOk : Bool) (s0 : State) : Out :=
  let s := s0.taken (.status st body checkOk)
  let l := s.link st
  .next <|
    match l.inFlight with
    | none => s
    | some f =>
      if !l.answerable then s
      else if !checkOk then (if f.isProbe then pumpLink st (probeAnswered st false s) else s)
      else
        match body with
        | [b] =>
          match statusOf b with
          | none => s
          | some code =>
            if f.isProbe then pumpLink st (probeAnswered st (decide (code = .ack)) s)
            else pumpLink st (flightAnswered st f code s)
        | _ => s

/-- FRAME_REJECTED (R149): answered NAK_CHECK or BAD_FRAME; ignored in OFFLINE; a STATUS is never answered (R142, R209). -/
def execFrameRejected (st : StationId) (kind : Byte) (checkOk : Bool) (s0 : State) : Out :=
  let s := s0.taken (.frameRejected st kind checkOk)
  let l := s.link st
  .next <|
    if l.state = .offline ∨ kind = 0x20 then s
    else pumpLink st (s.setLink st (l.answer (if checkOk then .badFrame else .nakCheck)))

/-- RECEIVE_GAP_TIMEOUT (R140): the frame being assembled is discarded. The gap exceeds 5 ms at the sixth (log entry 28). -/
def execReceiveGapTimeout (st : StationId) (s0 : State) : Out :=
  let s := s0.taken (.receiveGapTimeout st)
  .next <|
    match (s.link st).receiver with
    | .hunting => s
    | .assembling _ last =>
      let s1 := s.advanceTo (last + Config.byteGap + 1)
      s1.setLink st { s1.link st with receiver := .hunting }

/-- FRAME_HANDOVER (R144). -/
def execFrameHandover (st : StationId) (f : Frame) (s0 : State) : Out :=
  let s := s0.taken (.frameHandover st f)
  let l := s.link st
  .next <|
    if !l.inService ∨ l.refreshAwaited then s
    else if Config.outboxFrames ≤ l.outbox.length then requestRefresh st s
    else pumpLink st (s.setLink st { l with outbox := l.outbox ++ [{ frame := f }] })

/-- FRAME_SENT (R145): the last byte of the frame in flight has left: the status timer is loaded, and answers that waited go. -/
def execFrameSent (st : StationId) (s0 : State) : Out :=
  let s := s0.taken (.frameSent st)
  let l := s.link st
  .next <|
    match l.inFlight with
    | none => s
    | some f =>
      if f.sent then s
      else pumpLink st (s.setLink st { l with inFlight := some { f with sent := true }, statusDue := some (s.uptime + Config.statusLimit) })

/-- STATUS_TIMER_EXPIRY (R146, R153): no answer within the status limit. -/
def execStatusTimerExpiry (st : StationId) (s0 : State) : Out :=
  let s := s0.taken (.statusTimerExpiry st)
  .next <|
    match (s.link st).statusDue, (s.link st).inFlight with
    | some due, some f =>
      let s1 := s.advanceTo due
      pumpLink st (if f.isProbe then probeAnswered st false s1 else flightFailed st s1)
    | _, _ => s

/-- BUSY_WAIT_EXPIRY (R146): the frame in flight is sent again. -/
def execBusyWaitExpiry (st : StationId) (s0 : State) : Out :=
  let s := s0.taken (.busyWaitExpiry st)
  .next <|
    match (s.link st).busyDue with
    | none => s
    | some due =>
      let s1 := s.advanceTo due
      s1.setLink st (s1.link st).resend

/-- PROBE_TIMER_EXPIRY (R153): in STARTING and DARK the timer is loaded again, and a PROBE goes in flight if no frame is. -/
def execProbeTimerExpiry (st : StationId) (s0 : State) : Out :=
  let s := s0.taken (.probeTimerExpiry st)
  .next <|
    match (s.link st).probeDue with
    | none => s
    | some due =>
      let s1 := s.advanceTo due
      let l := { s1.link st with probeDue := some (s1.uptime + Config.probeTime) }
      s1.setLink st (if l.inFlight.isNone then l.sendAnswers.launch .probe true false else l)

/-- REFRESH_REQUEST (R148). -/
def execRefreshRequest (st : StationId) (s0 : State) : Out := .next (requestRefresh st (s0.taken (.refreshRequest st)))

/-- REFRESH_ANSWER (R148): the answer to the ask outstanding fills the outbox; any other is discarded. In REJOINING the last frame
carries the rejoin mark, and an earlier mark is dropped. -/
def execRefreshAnswer (st : StationId) (ask : Nat) (shows : List Frame) (s0 : State) : Out :=
  let s := s0.taken (.refreshAnswer st ask shows)
  let l := s.link st
  .next <|
    if l.refreshAwaited ∧ ask = l.askNo then
      let mark := decide (l.state = .rejoining)
      let flight := if mark then l.inFlight.map (fun f => { f with rejoin := false }) else l.inFlight
      pumpLink st (s.setLink st { l with outbox := l.outbox ++ refreshFrames mark shows, refreshAwaited := false, inFlight := flight })
    else s

/-- R149: where a complete frame goes, by its kind. -/
def frameEvent (st : StationId) (kind : Byte) (body : List Byte) (checkOk : Bool) : Instr :=
  if kind = 0x20 then .status st body checkOk
  else if kind = 0x21 then .keyFrame st body checkOk
  else if kind = 0x22 then .hello st body checkOk
  else .frameRejected st kind checkOk

/-- R140: the receiver as a byte finds it: a gap of more than 5 ms has discarded the frame so far. -/
def Receiver.after (now : Nat) : Receiver → Receiver
  | .hunting => .hunting
  | .assembling bytes last => if last + Config.byteGap < now then .hunting else .assembling bytes last

/-- BYTE_ARRIVAL (R140). -/
def execByteArrival (st : StationId) (b : Byte) (s0 : State) : Out :=
  let s := s0.taken (.byteArrival st b)
  let l := s.link st
  .next <|
    match l.receiver.after s.uptime with
    | .hunting =>
      s.setLink st { l with receiver := if b = 0xC3 then .assembling [] s.uptime else .hunting }
    | .assembling bytes _ =>
      let all := bytes ++ [b]
      let hunting := s.setLink st { l with receiver := .hunting }
      match all with
      | kind :: len :: rest =>
        if 64 < len.toNat then hunting
        else if rest.length = len.toNat + 1 then
          hunting.hand (frameEvent st kind (rest.take len.toNat) (decide (byteSum all = 0)))
        else s.setLink st { l with receiver := .assembling all s.uptime }
      | _ => s.setLink st { l with receiver := .assembling all s.uptime }

/-! ### Configuration and reset (R157, R158) -/

/-- R157: an inactive station's link becomes STARTING. -/
def startLink (now : Nat) (l : Link) : Link :=
  { l with state := .starting, count := l.hint, reported := none, probeDue := some (now + Config.probeTime) }

/-- R157, R145: a station made inactive: OFFLINE, with nothing in flight, in the outbox or on a timer. The frame that was being sent is
dropped, so the answers that waited for its last byte go at once (log entry 11). -/
def stopLink (l : Link) : Link :=
  ({ l with state := .offline, inFlight := none, outbox := [], refreshAwaited := false, failures := 0, busies := 0,
            statusDue := none, busyDue := none, probeDue := none, receiver := .hunting } : Link).sendAnswers

/-- SET_STATION (R157). R157 gives a change of state and a change of fallback no order: the state is announced first (DESIGN CHOICE,
log entry 61). -/
def execSetStation (r : Requester) (station active fallback hint : Word) (s0 : State) : Out :=
  let s := s0.taken (.setStation r station active fallback hint)
  if r.authority ≠ .supervisor then refuse .authority s
  else
    match stationOf station, yesNo active, finOrNone 24 fallback, within 4 8 hint with
    | some st, some on, some fb, some n =>
      if fb = some st then refuse .range s
      else
        let old := s.link st
        let written := { old with active := on, fallback := fb, hint := n }
        let new := if on ∧ !old.active then startLink s.uptime written else if !on ∧ old.active then stopLink written else written
        let s1 := s.setLink st new
        let s2 := if new.state ≠ old.state then announce st old.state .setStation none s1 else s1
        let s3 := if fb ≠ old.fallback then s2.handAll [.fallbackChangeTkr st, .gateTest] else s2
        finish [Word.ofCount new.state.code] s3
    | _, _, _, _ => refuse .range s

/-- R158: a link at soft reset: an active one goes to STARTING, whatever its state. The answers not yet sent go with it. An inactive
one stays OFFLINE: R158 names no other effect on it, and its half-received frame and its reported slot count are kept (DESIGN CHOICE,
log entry 53). -/
def resetLink (now : Nat) (l : Link) : Link :=
  if l.active then
    { l with state := .starting, inFlight := none, outbox := [], refreshAwaited := false, failures := 0, busies := 0,
             statusDue := none, busyDue := none, probeDue := some (now + Config.probeTime), reported := none, count := l.hint,
             receiver := .hunting, answers := [] }
  else { l with answers := [] }

/-- R158: soft reset at SLC. -/
def slcSoftReset (s : State) : State :=
  (List.finRange 24).foldl (fun s1 st => s1.setLink st (resetLink s1.uptime (s1.link st))) s

end Sys2Proof.Machine
end

