-- ==== Sys2Proof/Machine/Resets.lean ====
section
/-! DEFINITION. The two resets (R31, R91, R116, R158, R175, R190, R191, R200). -/

namespace Sys2Proof.Machine

/-- POWER_ON_RESET (R191): every block in its power-on state. Host memory is not the part's and keeps its contents; the commands
that wait go on waiting, and the free values used stay used (log entry 29). -/
def execPowerOnReset (s0 : State) : Out :=
  .next { State.reset with mem := s0.mem, pending := s0.pending, freeValues := s0.freeValues }

/-- R31: a check slot at soft reset: its check is discarded and its generation advanced. -/
def discardCheck (v : CheckSlot) : CheckSlot := if v.check.isSome then { gen := v.gen + 1, check := none } else v

/-- R31, R47: soft reset at CKS and SPE. -/
def cksSoftReset (s : State) : State :=
  dayStands
    { s with cks := { s.cks with
        slots := Table.mapRecords {} discardCheck s.cks.slots
        tills := Table.mapRecords {} (fun v => { v with held := [] }) s.cks.tills
        closedList := []
        exportedList := []
        speCursor := 0 } }

/-- R116: a ticket record at soft reset. -/
def discardTicket (v : TicketRec) : TicketRec := if v.ticket.isSome then { gen := v.gen + 1, ticket := none } else v

/-- R116: soft reset at TKR. -/
def tkrSoftReset (s : State) : State :=
  { s with tkr := { tickets := Table.mapRecords {} discardTicket s.tkr.tickets, queues := [], delays := [], unsent := [] } }

/-- R190, R191: soft reset at EXU. -/
def exuSoftReset (s : State) : State :=
  { s with exu := { s.exu with chains := [], place := none, inWork := none, answer := none, fault := 0, dayClock := 0 } }

/-- R200: soft reset of the notices. -/
def ntcSoftReset (s : State) : State :=
  { s with ntc := { s.ntc with buffer := [], dropped := false, windowOpen := false, line := false, restarted := true,
                               reportDue := reportTimer s.ntc.mode s.ntc.interval s.uptime, holdDue := none,
                               fillFails := none } }

/-- R190: every block's soft reset; the hand-overs not yet taken are dropped with what they concern (log entry 32). -/
def softReset (s : State) : State :=
  let s1 := { s with handovers := [], askAnswer := none }
  dmwReset (tkrSoftReset (isuSoftReset (cksSoftReset (slcSoftReset (ntcSoftReset (exuSoftReset s1))))))

/-- SOFT_RESET (R178, R190): RUN is written first, and the reset then starts. -/
def execSoftReset (run : Bool) (s0 : State) : Out := .next (softReset (setRun run s0))

end Sys2Proof.Machine
end

