-- ==== Sys2Proof/Machine/Tenders.lean ====
section
/-! DEFINITION. Tenders and closing (spec/03_tenders_and_closing.md): TENDER, VOID_TENDER, SETTLE and the close of a check. -/

namespace Sys2Proof.Machine

/-! ### Closing (R60 to R62) -/

/-- R60: the check becomes CLOSED, its holding ends, and it joins the closed list with its close time. -/
def closeAtStore (h : Handle) (c : Check) (s : State) : State :=
  let s1 := (s.unhold c.holder h).setCheck h
    { c with state := .closed, holder := none, closeTime := some s.exu.dayClock }
  { s1 with cks := { s1.cks with closedList := s1.cks.closedList ++ [h] } }

/-- R61: the commit ask for a live line with the stock mark. -/
def commitLine (s : State) (l : Line) : State := if l.live && l.stockMark then commitAsk l.item l.quantity (storeAsks s) else s

/-- R62: a live HELD line of mode IMMEDIATE. -/
def Line.waitsClose (l : Line) : Bool := l.live && decide (l.fire = .held) && decide (l.mode = .immediate)

/-- R62: the hand-over of a live HELD line of mode DELAYED: due at the close time plus its delay. -/
def delayHandover (h : Handle) (s : State) (e : Line × Nat) : Option Instr :=
  match e.1.mode with
  | .delayed d =>
    if e.1.live && decide (e.1.fire = .held) then some (.delayListJoin { check := h, line := e.2 } (s.clockIn d)) else none
  | _ => none

/-- R62: in an ON_SETTLE stand the waiting lines are handed to the router: the IMMEDIATE ones as one firing. -/
def handWaiting (h : Handle) (c : Check) (s : State) : State :=
  if (s.stand c.stand).policy = .onSettle then
    let now := linesWhere Line.waitsClose c.lines
    let s1 := if now = [] then s else s.hand (.firing h now .close)
    s1.handAll (c.lines.zipIdx.filterMap (delayHandover h s))
  else s

/-- R60 to R62: a check closes. -/
def closeCheck (h : Handle) (c : Check) (s : State) : State :=
  (handWaiting h c (c.lines.foldl commitLine (closeAtStore h c s))).hand (.checkCloseTold h)

/-! ### Payer rows (R50) -/

/-- R52 step 3: an amount is applied to a payer's row. -/
def PayerRow.pay (row : PayerRow) (a : Nat) : PayerRow :=
  { row with applied := row.applied + a, remaining := row.remaining - a, paid := decide (row.remaining - a = 0) }

/-- R58 step 2: an applied amount is taken off a payer's row. -/
def PayerRow.unpay (row : PayerRow) (a : Nat) : PayerRow :=
  { row with applied := row.applied - a, remaining := row.remaining + a, paid := false }

/-- R50: every payer of the check is PAID. -/
def Check.allPaid (c : Check) : Bool := c.due.rows.all PayerRow.paid

/-- A change of one payer's row. -/
def Check.mapRow (c : Check) (p : Nat) (f : PayerRow → PayerRow) : Check :=
  { c with due := { c.due with rows := c.due.rows.modify p f } }

/-! ### TENDER (R51 to R55) -/

/-- R48: the record of a tender. -/
def tenderRecord (p : Nat) (kind : TenderKind) (amount : Nat) (reference : Word) (y : Payment) : Tender :=
  { payer := p, kind := kind, offered := amount, applied := y.applied, change := y.change, adjustment := y.adjustment,
    forfeit := y.forfeit, reference := reference }

/-- R52 steps 2 to 4: the check with a tender recorded. -/
def tendered (c : Check) (t : Tender) : Check :=
  ({ c with tenders := c.tenders ++ [t], state := .paying } : Check).mapRow t.payer (fun row => row.pay t.applied)

/-- R52: the result words of a TENDER. -/
def tenderWords (c : Check) (t : Tender) (remaining : Nat) (closed : Option Word) : List Word :=
  [Word.ofCount c.tenders.length, Word.ofCount t.applied, Word.ofCount t.change, Word.ofSigned t.adjustment,
    Word.ofCount t.forfeit, Word.ofCount remaining,
    Word.ofCount (if closed.isSome then CheckState.code .closed else CheckState.code .paying), closed.getD 0]

/-- R52: a TENDER that has passed its tests. -/
def takeTender (h : Handle) (c : Check) (t : Tender) (remaining : Nat) (s : State) : Out :=
  let c1 := tendered c t
  let s1 := s.setCheck h c1
  if c1.allPaid then
    finish (tenderWords c t (remaining - t.applied) (some s.exu.dayClock)) (closeCheck h c1 s1)
  else finish (tenderWords c t (remaining - t.applied) none) s1

/-- TENDER (R51, R52). -/
def execTender (r : Requester) (handle payer kind amount reference : Word) (s0 : State) : Out :=
  let s := s0.taken (.tender r handle payer kind amount reference)
  match within 0 7 payer, tenderKindOf kind, within 1 99999999 amount with
  | some p, some k, some a =>
    withHeldCheck r handle s (fun h c =>
      if !c.due.complete then refuse .unassigned s
      else
        match c.due.rows[p]? with
        | none => refuse .range s
        | some row =>
          if Config.tendersPerCheck ≤ c.tenders.length then refuse .range s
          else if row.remaining = 0 then refuse .payerPaid s
          else if k = .card ∧ row.remaining < a then refuse .overTender s
          else takeTender h c (tenderRecord p k a reference (payment k a row.remaining c.increment)) row.remaining s)
  | _, _, _ => refuse .range s

/-! ### VOID_TENDER (R57, R58) -/

/-- R58: the check with the tender of index `i` reversed. -/
def reversed (c : Check) (i : Nat) (t : Tender) : Check :=
  let c1 := ({ c with tenders := c.tenders.set i { t with reversed := true } } : Check).mapRow t.payer
    (fun row => row.unpay t.applied)
  { c1 with state := if c1.hasLiveTender then .paying else .opened }

/-- VOID_TENDER (R57, R58). -/
def execVoidTender (r : Requester) (handle index : Word) (s0 : State) : Out :=
  let s := s0.taken (.voidTender r handle index)
  match within 0 15 index with
  | none => refuse .range s
  | some i =>
    withHeldCheck r handle s (fun h c =>
      match c.tenders[i]? with
      | none => refuse .range s
      | some t =>
        if t.reversed then refuse .tenderVoid s
        else
          let c1 := reversed c i t
          finish [Word.ofCount ((c1.due.rows[t.payer]?).map PayerRow.remaining |>.getD 0), Word.ofCount c1.state.code]
            (s.setCheck h c1))

/-! ### SETTLE (R59) -/

/-- SETTLE (R59). -/
def execSettle (r : Requester) (handle : Word) (s0 : State) : Out :=
  let s := s0.taken (.settle r handle)
  withHeldCheck r handle s (fun h c =>
    if !c.due.complete then refuse .unassigned s
    else if !c.allPaid then refuse .notPaid s
    else finish [s.exu.dayClock] (closeCheck h c s))

end Sys2Proof.Machine
end

