-- ==== Sys2Proof/Machine/Dispatch.lean ====
section
/-! DEFINITION. One arm for each command: a direct call of its meaning. -/

namespace Sys2Proof.Machine

def exec (i : Instr) (s : State) : Host.Outcome State Fault Refusal :=
  match i with
  | .powerOnReset => Sys2Proof.Machine.execPowerOnReset s
  | .softReset run => Sys2Proof.Machine.execSoftReset run s
  | .run value => Sys2Proof.Machine.execRun value s
  | .exchangeBaseLo value => Sys2Proof.Machine.execExchangeBaseLo value s
  | .exchangeBaseHi value => Sys2Proof.Machine.execExchangeBaseHi value s
  | .exchangeSize value => Sys2Proof.Machine.execExchangeSize value s
  | .post offset => Sys2Proof.Machine.execPost offset s
  | .notice value => Sys2Proof.Machine.execNotice value s
  | .fault value => Sys2Proof.Machine.execFault value s
  | .registerWriteIgnored offset width value => Sys2Proof.Machine.execRegisterWriteIgnored offset width value s
  | .walkerTakeSlip stores => Sys2Proof.Machine.execWalkerTakeSlip stores s
  | .outcomeWrite => Sys2Proof.Machine.execOutcomeWrite s
  | .busError access => Sys2Proof.Machine.execBusError access s
  | .nop r => Sys2Proof.Machine.execNop r s
  | .openCheck r priority => Sys2Proof.Machine.execOpenCheck r priority s
  | .park r handle => Sys2Proof.Machine.execPark r handle s
  | .pickUp r handle => Sys2Proof.Machine.execPickUp r handle s
  | .forcePickUp r handle => Sys2Proof.Machine.execForcePickUp r handle s
  | .addLine r handle item quantity fireMode modCount d0 d1 d2 d3 => Sys2Proof.Machine.execAddLine r handle item quantity fireMode modCount d0 d1 d2 d3 s
  | .voidLine r handle line => Sys2Proof.Machine.execVoidLine r handle line s
  | .compLine r handle line => Sys2Proof.Machine.execCompLine r handle line s
  | .setShare r handle line mask => Sys2Proof.Machine.execSetShare r handle line mask s
  | .readCheck r handle offset length => Sys2Proof.Machine.execReadCheck r handle offset length s
  | .reopen r handle => Sys2Proof.Machine.execReopen r handle s
  | .exportClosed r offset length => Sys2Proof.Machine.execExportClosed r offset length s
  | .setStand r stand policy rate0 rate1 rate2 rate3 levy increment routesLo routesHi => Sys2Proof.Machine.execSetStand r stand policy rate0 rate1 rate2 rate3 levy increment routesLo routesHi s
  | .setTill r till stand closed => Sys2Proof.Machine.execSetTill r till stand closed s
  | .standState r stand target => Sys2Proof.Machine.execStandState r stand target s
  | .cutOff r stand => Sys2Proof.Machine.execCutOff r stand s
  | .closeDay r => Sys2Proof.Machine.execCloseDay r s
  | .setSplit r handle payers w0 w1 w2 w3 w4 w5 w6 w7 => Sys2Proof.Machine.execSetSplit r handle payers w0 w1 w2 w3 w4 w5 w6 w7 s
  | .quote r handle => Sys2Proof.Machine.execQuote r handle s
  | .tender r handle payer kind amount reference => Sys2Proof.Machine.execTender r handle payer kind amount reference s
  | .voidTender r handle index => Sys2Proof.Machine.execVoidTender r handle index s
  | .settle r handle => Sys2Proof.Machine.execSettle r handle s
  | .setItem r item isDefined price taxClass prepRoute restricted tracked lowMark slot => Sys2Proof.Machine.execSetItem r item isDefined price taxClass prepRoute restricted tracked lowMark slot s
  | .setBatch r slot item mode home interval baseSize capacity life lowMark leadDelay => Sys2Proof.Machine.execSetBatch r slot item mode home interval baseSize capacity life lowMark leadDelay s
  | .receiveStock r item quantity => Sys2Proof.Machine.execReceiveStock r item quantity s
  | .countStock r item count => Sys2Proof.Machine.execCountStock r item count s
  | .restartBatch r slot issueNow => Sys2Proof.Machine.execRestartBatch r slot issueNow s
  | .readItem r item => Sys2Proof.Machine.execReadItem r item s
  | .fire r handle group => Sys2Proof.Machine.execFire r handle group s
  | .prioritize r tag cls => Sys2Proof.Machine.execPrioritize r tag cls s
  | .recallTicket r tag => Sys2Proof.Machine.execRecallTicket r tag s
  | .readStation r station offset length => Sys2Proof.Machine.execReadStation r station offset length s
  | .setStation r station active fallback hint => Sys2Proof.Machine.execSetStation r station active fallback hint s
  | .setPace r sect w1 w2 w3 w4 w5 w6 w7 w8 w9 => Sys2Proof.Machine.execSetPace r sect w1 w2 w3 w4 w5 w6 w7 w8 w9 s
  | .readDemand r kind number => Sys2Proof.Machine.execReadDemand r kind number s
  | .setNotices r mode interval mask => Sys2Proof.Machine.execSetNotices r mode interval mask s
  | .ackRestart r => Sys2Proof.Machine.execAckRestart r s
  | .firing check lines cause => Sys2Proof.Machine.execFiring check lines cause s
  | .delayExpiry ref => Sys2Proof.Machine.execDelayExpiry ref s
  | .checkCloseTold check => Sys2Proof.Machine.execCheckCloseTold check s
  | .kitchenVoid ref item quantity was => Sys2Proof.Machine.execKitchenVoid ref item quantity was s
  | .slotFreed check => Sys2Proof.Machine.execSlotFreed check s
  | .batchTicketAsk slot quantity => Sys2Proof.Machine.execBatchTicketAsk slot quantity s
  | .bump station tag => Sys2Proof.Machine.execBump station tag s
  | .recall station tag => Sys2Proof.Machine.execRecall station tag s
  | .focusTimerExpiry tag => Sys2Proof.Machine.execFocusTimerExpiry tag s
  | .lateTimerExpiry tag => Sys2Proof.Machine.execLateTimerExpiry tag s
  | .paceChangeTkr stand pace => Sys2Proof.Machine.execPaceChangeTkr stand pace s
  | .linkStateTkr station state count => Sys2Proof.Machine.execLinkStateTkr station state count s
  | .fallbackChangeTkr station => Sys2Proof.Machine.execFallbackChangeTkr station s
  | .shownSetAsk station ask => Sys2Proof.Machine.execShownSetAsk station ask s
  | .reserve item quantity => Sys2Proof.Machine.execReserve item quantity s
  | .release item quantity => Sys2Proof.Machine.execRelease item quantity s
  | .commit item quantity => Sys2Proof.Machine.execCommit item quantity s
  | .uncommit ref item quantity => Sys2Proof.Machine.execUncommit ref item quantity s
  | .warmerDraw slot quantity => Sys2Proof.Machine.execWarmerDraw slot quantity s
  | .batchBump slot quantity => Sys2Proof.Machine.execBatchBump slot quantity s
  | .batchCancel slot => Sys2Proof.Machine.execBatchCancel slot s
  | .voidReturn item slot quantity => Sys2Proof.Machine.execVoidReturn item slot quantity s
  | .lotExpiry slot => Sys2Proof.Machine.execLotExpiry slot s
  | .batchTimerExpiry slot => Sys2Proof.Machine.execBatchTimerExpiry slot s
  | .leadTimerExpiry slot => Sys2Proof.Machine.execLeadTimerExpiry slot s
  | .paceChangeIsu stand level => Sys2Proof.Machine.execPaceChangeIsu stand level s
  | .gateTest => Sys2Proof.Machine.execGateTest s
  | .isuDayClose => Sys2Proof.Machine.execIsuDayClose s
  | .tkrDayClose => Sys2Proof.Machine.execTkrDayClose s
  | .dmwDayClose => Sys2Proof.Machine.execDmwDayClose s
  | .countAdd stand slot quantity => Sys2Proof.Machine.execCountAdd stand slot quantity s
  | .countTake stand slot quantity => Sys2Proof.Machine.execCountTake stand slot quantity s
  | .pairingChange slot => Sys2Proof.Machine.execPairingChange slot s
  | .sampleTimerExpiry => Sys2Proof.Machine.execSampleTimerExpiry s
  | .keyFrame station body checkOk => Sys2Proof.Machine.execKeyFrame station body checkOk s
  | .keyAnswer station code => Sys2Proof.Machine.execKeyAnswer station code s
  | .hello station body checkOk => Sys2Proof.Machine.execHello station body checkOk s
  | .status station body checkOk => Sys2Proof.Machine.execStatus station body checkOk s
  | .frameRejected station kind checkOk => Sys2Proof.Machine.execFrameRejected station kind checkOk s
  | .receiveGapTimeout station => Sys2Proof.Machine.execReceiveGapTimeout station s
  | .frameHandover station frame => Sys2Proof.Machine.execFrameHandover station frame s
  | .frameSent station => Sys2Proof.Machine.execFrameSent station s
  | .statusTimerExpiry station => Sys2Proof.Machine.execStatusTimerExpiry station s
  | .busyWaitExpiry station => Sys2Proof.Machine.execBusyWaitExpiry station s
  | .probeTimerExpiry station => Sys2Proof.Machine.execProbeTimerExpiry station s
  | .refreshRequest station => Sys2Proof.Machine.execRefreshRequest station s
  | .refreshAnswer station ask shows => Sys2Proof.Machine.execRefreshAnswer station ask shows s
  | .noticeRaise n => Sys2Proof.Machine.execNoticeRaise n s
  | .reportTimerExpiry => Sys2Proof.Machine.execReportTimerExpiry s
  | .fillRetryHoldEnd => Sys2Proof.Machine.execFillRetryHoldEnd s
  | .delayListJoin ref due => Sys2Proof.Machine.execDelayListJoin ref due s
  | .byteArrival station byte => Sys2Proof.Machine.execByteArrival station byte s

end Sys2Proof.Machine
end

