-- ==== Sys2Proof/Machine/Idle.lean ====
section
/-! DEFINITION. What the part does with no command waiting (DESIGN CHOICE, log entry 4): the oldest hand-over is taken; else the
walker writes an answered slip's outcome, or takes the next slip; else a frame on a line has left; else a timer that has run out
expires; and with none of these a millisecond passes. -/

namespace Sys2Proof.Machine

/-- A moment on the part's millisecond count that has come. -/
def State.come (s : State) : Option Nat → Bool
  | none => false
  | some due => decide (due ≤ s.uptime)

/-- The command, if the condition holds. -/
def when (c : Bool) (i : Instr) : Option Instr := if c then some i else none

/-- R185, R188: what the walker does next. -/
def walkerEvent (s : State) : Option Instr :=
  if s.exu.inWork.isSome ∧ s.exu.answer.isSome then some .outcomeWrite
  else when s.chainToWalk.isSome (.walkerTakeSlip [])

/-- R101: the first entry of the delay list has come due. -/
def delayEvent (s : State) : Option Instr :=
  match s.tkr.delays with
  | [] => none
  | d :: _ => when (s.reached d.due) (.delayExpiry d.ref)

/-- A RUNNING timer has run out. -/
def Countdown.ranOut (now : Nat) : Countdown → Bool
  | .running due => decide (due ≤ now)
  | _ => false

/-- The timer event of a batch slot: a lot's expiry, the batch timer, the lead timer. -/
def slotEvent (s : State) (t : SlotId) : Option Instr :=
  let b := s.batch t
  let lotDue := match firstToExpire s b.lots with
    | none => false
    | some (_, l) => s.reached l.expiry
  (when lotDue (.lotExpiry t)).or
    ((when (b.batchTimer.ranOut s.uptime) (.batchTimerExpiry t)).or (when (b.leadTimer.ranOut s.uptime) (.leadTimerExpiry t)))

/-- The timer event of a ticket: the focus timer, the late timer. -/
def ticketEvent (s : State) (e : Nat × Ticket) : Option Instr :=
  (when (s.come e.2.focusDue) (.focusTimerExpiry (s.tagAt e.1))).or (when (s.come e.2.lateDue) (.lateTimerExpiry (s.tagAt e.1)))

/-- The gap since the last byte of a frame being assembled exceeds its limit (R140). -/
def gapOver (now : Nat) : Receiver → Bool
  | .hunting => false
  | .assembling _ last => decide (last + Config.byteGap < now)

/-- The event of a station's link: a frame that has left, the status timer, the busy wait, the probe timer, the receive gap. -/
def linkEvent (s : State) (st : StationId) : Option Instr :=
  let l := s.link st
  (when l.transmitting (.frameSent st)).or <|
    (when (s.come l.statusDue) (.statusTimerExpiry st)).or <|
      (when (s.come l.busyDue) (.busyWaitExpiry st)).or <|
        (when (s.come l.probeDue) (.probeTimerExpiry st)).or (when (gapOver s.uptime l.receiver) (.receiveGapTimeout st))

/-- The event of the notice timers and the sample timer. -/
def wholePartEvent (s : State) : Option Instr :=
  (when (s.come (some s.dmw.sampleDue)) .sampleTimerExpiry).or <|
    (when (s.come s.ntc.reportDue) .reportTimerExpiry).or (when (s.come s.ntc.holdDue) .fillRetryHoldEnd)

/-- The next event that the part makes by itself, if one is due now. -/
def nextEvent (s : State) : Option Instr :=
  s.handovers.head?.or <|
    (walkerEvent s).or <|
      (delayEvent s).or <|
        ((List.finRange 32).findSome? (slotEvent s)).or <|
          (s.tickets.findSome? (ticketEvent s)).or <|
            ((List.finRange 24).findSome? (linkEvent s)).or (wholePartEvent s)

end Sys2Proof.Machine
end

