-- ==== Sys2Proof/Machine/Step.lean ====
section
/-! DEFINITION. One step of the part: the command at the front of the queue, or what the part does by itself. -/

namespace Sys2Proof.Machine

/-- With no command waiting, the next event of the part's own; with none due, a millisecond passes (log entry 4). -/
def idle (s : State) : Out :=
  match nextEvent s with
  | some c => exec c s
  | none => .next (s.advance 1)

/-- One step: the command at the front of the queue is taken off it and carried out. -/
def step (s : State) : Host.Outcome State Fault Refusal :=
  match s.pending with
  | [] => idle s
  | c :: rest => exec c { s with pending := rest }

/-- The state with the command that a word spells put at the front of its queue; unchanged where the word spells none. -/
def State.withFetchWord (s : State) (nbits w : Nat) : State :=
  match decodeTableWord nbits w with
  | none => s
  | some c => { s with pending := c :: s.pending }

end Sys2Proof.Machine
end

