-- ==== Sys2Proof/Safety.lean ====
section
/-! DEFINITION. What counts as a safe state of the part: the invariants the rules state, in the terms the claims use. -/

namespace Sys2Proof.Machine

/-- The way in and the notices: host memory is canonical; at most 8 chains are listed (R183); RUN is 1 only while the region is
set (R178); the base is a multiple of 4,096 (R176, R179); the notice line is raised exactly while the window is open (R196); the
buffer holds at most 128 entries (R192); the report interval is in its range (R199). -/
structure ExchangeOk (s : State) : Prop where
  memory : Memory.wf s.mem = true
  chains : s.exu.chains.length ≤ 8
  runRegion : s.exu.run = true → 16 ≤ s.exu.size.toNat ∧ s.exu.size.toNat ≤ 4096
  base : s.exu.baseLo.toNat % 4096 = 0
  line : s.ntc.line = s.ntc.windowOpen
  buffer : s.ntc.buffer.length ≤ 128
  interval : 250 ≤ s.ntc.interval ∧ s.ntc.interval ≤ 10000

/-- Stock, pairings and warmers: reserved is at most on-hand, and on-hand at most 65,535 (R70); an item and a slot that are
paired name each other (R68); a batch item is not stock-tracked (R66); a warmer holds at most 4 lots, each of at least one unit,
and no more than its capacity (R78). -/
structure StockOk (s : State) : Prop where
  counts : ∀ x, (s.item x).reserved ≤ (s.item x).onHand ∧ (s.item x).onHand ≤ 65535
  pairing : ∀ x t, (s.item x).slot = some t ↔ (s.batch t).item = some x
  untracked : ∀ x, (s.item x).slot.isSome → (s.item x).tracked = false
  lots : ∀ t, (s.batch t).lots.length ≤ 4 ∧ (∀ l ∈ (s.batch t).lots, 1 ≤ l.count) ∧ (s.batch t).ready ≤ (s.batch t).capacity

/-- Holding and the two lists: a till's held list names exactly the checks it holds, none twice and at most 8 (R6, R14), and
is an open till of the check's stand (R14); a CLOSED or EXPORTED check has no holder (R10); the closed list holds CLOSED checks and
the exported list EXPORTED ones, none twice (R27; that they hold every such check is `EndedListed`); at most 8,192 line records are in use (R12), and the check table lists slots 0..1,023 in order. -/
structure HoldingOk (s : State) : Prop where
  heldLive : ∀ n h, h ∈ (s.till n).held → ∃ c, s.check h = some c ∧ c.holder = some n
  heldListed : ∀ h c n, s.check h = some c → c.holder = some n → h ∈ (s.till n).held
  heldOpen : ∀ h c n, s.check h = some c → c.holder = some n →
    1 ≤ n ∧ n ≤ 96 ∧ (s.till n).isOpen = true ∧ (s.till n).stand = some c.stand
  heldOnce : ∀ n, (s.till n).held.Nodup ∧ (s.till n).held.length ≤ 8
  endedFree : ∀ h c, s.check h = some c → c.ended = true → c.holder = none
  closedList : s.cks.closedList.Nodup ∧ ∀ h ∈ s.cks.closedList, ∃ c, s.check h = some c ∧ c.state = .closed
  exportedList : s.cks.exportedList.Nodup ∧ ∀ h ∈ s.cks.exportedList, ∃ c, s.check h = some c ∧ c.state = .exported
  lineRecords : s.linesInUse ≤ 8192
  slotTable : Table.wf {} s.cks.slots = true ∧ ∀ e ∈ s.cks.slots, e.1 < 1024

/-- R27: every CLOSED check is on the closed list, and every EXPORTED one on the exported list. -/
def EndedListed (s : State) : Prop :=
  ∀ h c, s.check h = some c →
    (c.state = .closed → h ∈ s.cks.closedList) ∧ (c.state = .exported → h ∈ s.cks.exportedList)

/-- The applied amounts of a payer's live tenders. -/
def Check.liveApplied (c : Check) (p : Nat) : Nat :=
  ((c.tenders.filter (fun t => !t.reversed && decide (t.payer = p))).map Tender.applied).sum

/-- The money of a check: a row for each payer (R34); applied and remaining make up the due, applied is what the payer's live
tenders applied, and in a COMPLETE table a payer is PAID exactly when nothing remains (R50, R58); each tender applied at least 1
(R50); an OPEN check has no live tender and a PAYING one has (R11, R56); a CLOSED check is COMPLETE with every payer PAID (R50);
and the capacities of R10, R12, R32 and R48 hold. -/
structure Check.MoneyOk (c : Check) : Prop where
  rows : ∀ p row, c.due.rows[p]? = some row →
    row.applied + row.remaining = row.due ∧ row.applied = c.liveApplied p ∧
      (c.due.complete = true → row.paid = decide (row.remaining = 0))
  rowCount : c.due.rows.length = c.weights.length
  applied : ∀ t ∈ c.tenders, 1 ≤ t.applied
  openState : c.state = .opened → c.hasLiveTender = false
  payingState : c.state = .paying → c.hasLiveTender = true
  closedState : c.state = .closed → c.due.complete = true ∧ c.allPaid = true
  payers : 1 ≤ c.weights.length ∧ c.weights.length ≤ 8
  lines : c.lines.length ≤ 40
  tenders : c.tenders.length ≤ 16

/-- The money of every check. -/
def MoneyOk (s : State) : Prop := ∀ h c, s.check h = some c → c.MoneyOk

/-! ### Terms of the claims about the way in -/

/-- R176: an offset at which a slip may lie: a multiple of 64, at least 4,096, and below the end of a region of 16..4,096
pages. -/
def SlipOffset (s : State) (o : Word) : Prop :=
  o.toNat % 64 = 0 ∧ 4096 ≤ o.toNat ∧ 16 ≤ s.exu.size.toNat ∧ s.exu.size.toNat ≤ 4096 ∧ o.toNat < s.exu.size.toNat * 4096

/-- R26 step 1: a buffer that a request may name: a multiple of 4, from 4,096 on, inside the region, clear of the slip in work. -/
def BufferOffset (s : State) (o n : Word) : Prop :=
  o.toNat % 4 = 0 ∧ 4096 ≤ o.toNat ∧ 16 ≤ s.exu.size.toNat ∧ s.exu.size.toNat ≤ 4096 ∧
    o.toNat + n.toNat ≤ s.exu.size.toNat * 4096 ∧
    ∀ w, s.exu.inWork = some w → o.toNat + n.toNat ≤ w.offset.toNat ∨ w.offset.toNat + 64 ≤ o.toNat ∨ n.toNat = 0

/-- R192, the last column of its table: a new notice meets a buffered one. -/
def SameSubject (old new : Notice) : Prop :=
  old.subject = new.subject ∧
    ((new.kind = .ticketState ∧ old.kind = .ticketState) ∨ (new.kind = .paceChange ∧ old.kind = .paceChange) ∨
      (new.kind = .stationState ∧ old.kind = .stationState) ∨
      ((new.kind = .itemOut ∨ new.kind = .itemBack) ∧ (old.kind = .itemOut ∨ old.kind = .itemBack)) ∨
      (new.kind = .waste ∧ old.kind = .waste ∧ old.values[0]? = new.values[0]?))

/-- Every byte of host memory but the `n` bytes from an offset of the region on reads as before. -/
def BytesKeptBut (s t : State) (offset n : Nat) : Prop :=
  ∀ a, (∀ i, i < n → a ≠ s.busAddress (offset + i)) → t.byteAt a = s.byteAt a

/-- The bytes from an offset of the region on are those of a list. -/
def BytesThere (t : State) (offset : Nat) (l : List Byte) : Prop :=
  ∀ i b, l[i]? = some b → t.byteAt (t.busAddress (offset + i)) = b

/-- R186: of the whole state a chain abandoned at the slip of offset `o` changes this: its fault bit, the chain list, the
walker's place, and the notice. -/
def AbandonedAt (bit : FaultBit) (head : Word) (p : Place) (o : Word) (s t : State) : Prop :=
  t = { s with
    exu := { s.exu with fault := s.exu.fault ||| (1#7 <<< bit.number), chains := s.exu.chains.tail, place := none, inWork := none,
                        answer := none }
    handovers := s.handovers ++
      [.noticeRaise { kind := .chainAbandoned, subject := head,
                      values := [o, Word.ofCount bit.number, p.headTag, Word.ofCount p.slips, Word.ofCount p.refused] }] }

/-- R26, R137, R29: a request that writes a buffer of the region. -/
def BufferRequest (c : Instr) : Prop :=
  ∃ r w o n, c = .readCheck r w o n ∨ c = .readStation r w o n ∨ c = .exportClosed r o n

/-- R26, R29, R137, R207: a request with the buffer `n` bytes long at `o` would write the bytes of a list there: the record of the check
that a READ_CHECK names, the header and the whole records that fit of the station that a READ_STATION names, or, for an EXPORT_CLOSED,
the records, each as EXPORTED, of the oldest closed checks that fit. -/
def WouldWrite (s : State) (c : Instr) (o n : Word) (bytes : List Byte) : Prop :=
  BufferOffset s o n ∧
    ((∃ r w h k, c = .readCheck r w o n ∧ handleOf w = some h ∧ s.check h = some k ∧ k.due.rows.length = k.weights.length ∧
        bytes = checkRecord h k ∧ checkRecordLength k ≤ n.toNat) ∨
      (∃ r w st, c = .readStation r w o n ∧ stationOf w = some st ∧ 16 ≤ n.toNat ∧
        bytes = stationHeader s st ++ (recordsFit (n.toNat - 16) (stationRecords s st)).flatten) ∨
      (∃ (r : Requester) (recs : List (Handle × Check)) (rest : List Handle), c = .exportClosed r o n ∧ recs ≠ [] ∧
        s.cks.closedList = recs.map Prod.fst ++ rest ∧
        (∀ e ∈ recs, s.check e.1 = some e.2 ∧ e.2.due.rows.length = e.2.weights.length) ∧
        (recs.map (fun e => checkRecordLength e.2)).sum ≤ n.toNat ∧
        (∀ h more, rest = h :: more → ∃ k, s.check h = some k ∧
          n.toNat < (recs.map (fun e => checkRecordLength e.2)).sum + checkRecordLength k) ∧
        bytes = recs.flatMap (fun e => checkRecord e.1 { e.2 with state := .exported })))

/-! ### Terms of the claims -/

/-- The commands carried out one after another; a command that stops ends them. -/
def ranAll : List Instr → State → Option State
  | [], s => some s
  | c :: cs, s =>
    match exec c s with
    | .next t => ranAll cs t
    | _ => none

/-- R1: no hand-over of one block to another waits. -/
def NoneWaits (s : State) (sender receiver : Block) : Prop := ∀ c ∈ s.handovers, pathOf c ≠ some (sender, receiver)

/-- R1, R13: the state in which ISU takes a stock ask of the Check Store, where `asks` says that one is made: the gate tests and the
day close that CKS has handed to ISU before have been carried out, in the order made. -/
def AskedOfIsu (asks : Prop) (s u : State) : Prop :=
  (asks → (∀ c ∈ s.waitingFor .cks .isu, c = .gateTest ∨ c = .isuDayClose) →
    ranAll (s.waitingFor .cks .isu) s = some u) ∧
  (¬ asks → u = s)

/-- The tables of the seven blocks are as they were. -/
def BlocksKept (s t : State) : Prop := t.cks = s.cks ∧ t.isu = s.isu ∧ t.tkr = s.tkr ∧ t.slc = s.slc ∧ t.dmw = s.dmw

/-- A request was done: its answer is DONE with these result words, and of EXU nothing else changed. -/
def DoneWith (results : List Word) (s t : State) : Prop := t.exu = { s.exu with answer := some (.done results) }

/-- R7: a request refused changes no state of any block: only the answer is there, and the request waits no more. -/
def RefusedWith (c : Instr) (reason : Reason) (word0 : Option Word) (s t : State) : Prop :=
  t = { s.taken c with exu := { s.exu with answer := some (.refused reason word0) } }

/-- R7: an open till 1..96 of a stand. -/
def OpenTill (s : State) (n : Nat) (stand : StandId) : Prop :=
  1 ≤ n ∧ n ≤ 96 ∧ (s.till n).isOpen = true ∧ (s.till n).stand = some stand

/-- R19: a request that only the check's holder may make, FIRE apart, with its operands in their ranges; COMP_LINE with SUPERVISOR. -/
def HolderRequest (r : Requester) (w : Word) (cmd : Instr) : Prop :=
  cmd = .park r w ∨ cmd = .settle r w ∨
  (∃ i : Word, i.toNat ≤ 39 ∧ (cmd = .voidLine r w i ∨ (r.authority = .supervisor ∧ cmd = .compLine r w i) ∨
    ∃ m : Word, m.toNat ≤ 511 ∧ cmd = .setShare r w i m)) ∨
  (∃ i : Word, i.toNat ≤ 15 ∧ cmd = .voidTender r w i) ∨
  (∃ x q fm mc a b c d : Word, x.toNat ≤ 2047 ∧ 1 ≤ q.toNat ∧ q.toNat ≤ 99 ∧ fireModeOf fm ≠ none ∧
    deltasOf mc [a, b, c, d] ≠ none ∧ cmd = .addLine r w x q fm mc a b c d) ∨
  (∃ p a b c d e f g i : Word, 1 ≤ p.toNat ∧ p.toNat ≤ 8 ∧
    (∀ x ∈ [a, b, c, d, e, f, g, i].take p.toNat, 1 ≤ x.toNat ∧ x.toNat ≤ 15) ∧ cmd = .setSplit r w p a b c d e f g i) ∨
  (∃ p k a ref : Word, p.toNat ≤ 7 ∧ k.toNat ≤ 2 ∧ 1 ≤ a.toNat ∧ a.toNat ≤ 99999999 ∧ cmd = .tender r w p k a ref)

/-- R19: a handle word names a check that is neither CLOSED nor EXPORTED, held by the requesting till. -/
def HeldBy (s : State) (r : Requester) (w : Word) (h : Handle) (c : Check) : Prop :=
  handleOf w = some h ∧ s.check h = some c ∧ c.ended = false ∧ c.holder = some r.till.toNat

/-- Every check but the one named is as it was. -/
def OtherChecksKept (s t : State) (h : Handle) : Prop := ∀ g, g ≠ h → t.check g = s.check g

/-! ### Terms of the claims about checks and money -/

/-- Of the Check Store only check records, tills' records and the Split Engine's cursor changed. -/
def StoreKeptBut (s t : State) : Prop :=
  t.cks = { s.cks with slots := t.cks.slots, tills := t.cks.tills, speCursor := t.cks.speCursor }

/-- Every till but the one named is as it was. -/
def OtherTillsKept (s t : State) (n : Nat) : Prop := ∀ m, m ≠ n → t.till m = s.till m

/-- R36: a check with other lines and another plan has its due table built afresh. -/
def Rebuilt (c : Check) (lines : List Line) (weights : List Nat) : Check :=
  { c with lines := lines, weights := weights, due := dueTable lines weights c.rates c.levy }

/-- R52: a tender of payer `p` for the amount `a` was taken with what `y` says: its record is appended, the payer's row moved, and
the check PAYING, or CLOSED where every payer is now PAID; the answer gives the figures. -/
def TenderTaken (s t : State) (h : Handle) (c : Check) (p : Nat) (row : PayerRow) (kind : TenderKind) (a : Nat) (ref : Word)
    (y : Payment) (cmd : Instr) : Prop :=
  ∃ c1, t.check h = some c1 ∧
    c1.tenders = c.tenders ++ [{ payer := p, kind := kind, offered := a, applied := y.applied, change := y.change,
                                 adjustment := y.adjustment, forfeit := y.forfeit, reference := ref, reversed := false }] ∧
    c1.due = { c.due with
      rows := c.due.rows.set p { row with
        applied := row.applied + y.applied, remaining := row.remaining - y.applied,
        paid := decide (row.remaining = y.applied) } } ∧
    c1.lines = c.lines ∧ c1.weights = c.weights ∧ OtherChecksKept s t h ∧
    (if c1.due.rows.all PayerRow.paid then
      c1.state = .closed ∧ c1.holder = none ∧ c1.closeTime = some s.exu.dayClock ∧
      t.cks.closedList = s.cks.closedList ++ [h] ∧ t.handovers.getLast? = some (.checkCloseTold h) ∧
      DoneWith [Word.ofCount c.tenders.length, Word.ofCount y.applied, Word.ofCount y.change, Word.ofSigned y.adjustment,
        Word.ofCount y.forfeit, Word.ofCount (row.remaining - y.applied), 2, s.exu.dayClock] s t ∧
      t = { s with exu := t.exu, cks := t.cks, isu := t.isu, handovers := t.handovers }
    else
      c1.state = .paying ∧ c1.holder = c.holder ∧ c1.closeTime = c.closeTime ∧
      DoneWith [Word.ofCount c.tenders.length, Word.ofCount y.applied, Word.ofCount y.change, Word.ofSigned y.adjustment,
        Word.ofCount y.forfeit, Word.ofCount (row.remaining - y.applied), 1, 0] s t ∧
      t = { s.taken cmd with exu := t.exu, cks := { s.cks with slots := t.cks.slots } })

/-- The quantities of the live lines of an item that hold the stock mark. -/
def Check.stockOf (c : Check) (x : ItemId) : Nat :=
  ((c.lines.filter (fun l => !l.void && l.stockMark && decide (l.item = x))).map Line.quantity).sum

/-! ### Terms of the claims about items, warmers and tickets -/

/-- R118: of two tickets the first stands before the second in key order: the higher class, then the older, then the lower index. -/
def KeyBefore (s : State) (i j : Nat) : Prop :=
  ∀ a b, s.ticketAt i = some a → s.ticketAt j = some b →
    b.cls.rank < a.cls.rank ∨ (b.cls.rank = a.cls.rank ∧ (a.firedAt < b.firedAt ∨ (a.firedAt = b.firedAt ∧ i < j)))

/-- R117: of two shown tickets the first has the lower slot. -/
def SlotBefore (s : State) (i j : Nat) : Prop :=
  ∀ a b k l, s.ticketAt i = some a → s.ticketAt j = some b → a.slot = some k → b.slot = some l → k < l

/-- The station queues: each collection of a station lists exactly the tickets of that state that stand there, none twice, and at
most 6 bumped (R117, R98); the shown set stands in slot order (R117) and the waiting queue in key order (R118); a ticket has a slot
exactly while it is SHOWN, and no two shown at a station have the same (R119); tickets lie in records 0..1,535 (R97). -/
structure QueuesOk (s : State) : Prop where
  waiting : ∀ st i, i ∈ (s.queues st).waiting ↔ ∃ t, s.ticketAt i = some t ∧ t.station = st ∧ t.state = .waiting
  shown : ∀ st i, i ∈ (s.queues st).shown ↔ ∃ t, s.ticketAt i = some t ∧ t.station = st ∧ t.state = .shown
  bumped : ∀ st i, i ∈ (s.queues st).bumped ↔ ∃ t, s.ticketAt i = some t ∧ t.station = st ∧ t.state = .bumped
  once : ∀ st, (s.queues st).waiting.Nodup ∧ (s.queues st).shown.Nodup ∧ (s.queues st).bumped.Nodup ∧
    (s.queues st).bumped.length ≤ 6
  slotOrder : ∀ st, (s.queues st).shown.Pairwise (SlotBefore s)
  keyOrder : ∀ st, (s.queues st).waiting.Pairwise (KeyBefore s)
  slots : ∀ i t, s.ticketAt i = some t → (t.state = .shown ↔ t.slot.isSome = true)
  distinct : ∀ st i j a b, i ∈ (s.queues st).shown → j ∈ (s.queues st).shown → i ≠ j → s.ticketAt i = some a →
    s.ticketAt j = some b → a.slot ≠ b.slot
  records : ∀ i t, s.ticketAt i = some t → i < 1536

/-- R122 steps 1 and 2: of two tickets the first gives way first: the lower class, then the newer, then the higher index. -/
def GivesWayBefore (i j : Nat) (a b : Ticket) : Prop :=
  a.cls.rank < b.cls.rank ∨ (a.cls.rank = b.cls.rank ∧ (b.firedAt < a.firedAt ∨ (a.firedAt = b.firedAt ∧ j < i)))

/-- The stand of a ticket: its own, or a batch ticket's slot's home (R121, R125). -/
def StandOfTicket (s : State) (tk : Ticket) (n : StandId) : Prop :=
  (∃ h d, tk.kind = .order n h d) ∨ ∃ b, tk.kind = .batch b ∧ (s.batch b).home = n

/-- R136: the TICKET_STATE notice of the ticket in record `i`, as it stands in `tk`, as hand-overs; a batch ticket raises none. -/
def TicketStateNotice (s : State) (i : Nat) (tk : Ticket) : List Instr :=
  match tk.kind with
  | .batch _ => []
  | .order _ h d =>
    [.noticeRaise
      { kind := .ticketState, subject := (s.tagAt i).toWord,
        values := [Word.ofCount tk.state.code, Word.ofCount tk.station.val, countWord tk.slot,
          Word.ofCount (tk.cls.rank + (if tk.late then 256 else 0) + d * 65536), h.toWord] }]

/-- R134, R136: the ticket in record `i`, WAITING as `tk`, was moved to the station `f`, where it may since have been shown, and its
TICKET_STATE raised. -/
def MovedTo (s t : State) (f : StationId) (i : Nat) (tk : Ticket) : Prop :=
  (∃ tk1, t.ticketAt i = some tk1 ∧ tk1.station = f ∧ tk1.kind = tk.kind ∧ tk1.entries = tk.entries ∧ tk1.cls = tk.cls ∧
    (i ∈ (t.queues f).waiting ∨ i ∈ (t.queues f).shown)) ∧
    ∀ e ∈ TicketStateNotice s i { tk with state := .waiting, slot := none, station := f }, e ∈ t.handovers

/-- R89: the gate of a slot is open: its home stand is not CLOSED, and the link of its station, or of that station's fallback, is
LIVE. -/
def GateIsOpen (s : State) (b : SlotId) : Prop :=
  (s.stand (s.batch b).home).state ≠ .closed ∧
    ∃ x st, (s.batch b).item = some x ∧ (s.stand (s.batch b).home).routes.getD (s.item x).prepRoute.val none = some st ∧
      ((s.link st).state = .live ∨ ∃ f, (s.link st).fallback = some f ∧ (s.link f).state = .live)

/-- R89: a timer stands loaded with `ms` left: RUNNING behind an open gate, HELD behind a closed one. -/
def LoadedWith (t : State) (b : SlotId) (timer : Countdown) (ms : Nat) : Prop :=
  (GateIsOpen t b → timer = .running (t.uptime + ms)) ∧ (¬ GateIsOpen t b → timer = .held ms)

/-- R84: the effective interval of a slot, in s, from its interval and the level ISU holds for its home stand. -/
def EffectiveInterval (interval : Nat) (level : Level) : Nat :=
  match level with
  | .normal => max 30 interval
  | .busy => max 30 (3 * interval / 4)
  | .rush => max 30 (interval / 2)

/-- R71: the availability notices of an item whose counts became those of `new`, as hand-overs in order. -/
def StockNotices (x : ItemId) (old new : Item) : List Instr :=
  let before := old.onHand - old.reserved
  let after := new.onHand - new.reserved
  let say := fun (k : NoticeKind) => Instr.noticeRaise
    { kind := k, subject := Word.ofCount x.val, values := [Word.ofCount after, Word.ofCount new.onHand, Word.ofCount new.reserved] }
  if new.tracked then
    (if new.lowMark ≤ before ∧ after < new.lowMark then [say .stockLow] else []) ++
      (if 0 < before ∧ after = 0 then [say .itemOut] else []) ++ (if before = 0 ∧ 0 < after then [say .itemBack] else [])
  else []

/-- Of the Item and Stock Unit only one item's record changed, to `new`, and the notices of R71 were raised. -/
def StockBecame (x : ItemId) (new : Item) (before : List Instr) (s t : State) : Prop :=
  t.item x = new ∧ (∀ y, y ≠ x → t.item y = s.item y) ∧ t.isu = { s.isu with items := t.isu.items } ∧
    t.handovers = before ++ StockNotices x (s.item x) new

/-- Of the Item and Stock Unit only one slot's record changed. -/
def OtherSlotsKept (s t : State) (b : SlotId) : Prop :=
  (∀ a, a ≠ b → t.batch a = s.batch a) ∧ t.isu = { s.isu with batches := t.isu.batches }

/-- A WASTE notice as a hand-over: item, cause code, quantity. -/
def WasteNotice (x : ItemId) (cause q : Nat) : Instr :=
  .noticeRaise { kind := .waste, subject := Word.ofCount x.val, values := [Word.ofCount cause, Word.ofCount q] }

/-- R88: a lead timer is started on a slot, from the state `x` with the slot's lots and ticket as they then are: loaded with the lead
delay, or, with a delay of 0 behind an open gate, run out at once, and a batch is made; where it is not IDLE, or a ticket is outstanding,
nothing happens. -/
def LeadStarts (b : SlotId) (x t : State) : Prop :=
  let y := x.batch b
  (y.leadTimer ≠ .idle ∨ y.outstanding ≠ none → t = x) ∧
    (y.leadTimer = .idle → y.outstanding = none →
      (y.leadDelay ≠ 0 ∨ ¬ GateIsOpen x b →
        ∃ timer, LoadedWith x b timer (y.leadDelay * 1000) ∧ t = x.setBatch b { y with leadTimer := timer }) ∧
      (y.leadDelay = 0 → GateIsOpen x b → t = (makeBatch b (EffectiveInterval y.interval (x.factor y.home)) x).1))

/-- R208: the code of a timer's state. -/
def TimerCode : Countdown → Nat
  | .idle => 0
  | .running _ => 1
  | .held _ => 2

/-- R101: an entry of the delay list stands before another: due earlier, round the wrap; among equals of the lower slot number, and then
of the lower line index. -/
def DueBefore (s : State) (a b : Delay) : Prop :=
  let x := (a.due - s.exu.dayClock).toInt
  let y := (b.due - s.exu.dayClock).toInt
  x < y ∨ (x = y ∧ (a.ref.check.slot < b.ref.check.slot ∨
    (a.ref.check.slot = b.ref.check.slot ∧ a.ref.line < b.ref.line)))

/-- R110: the order-ready test of a check passes. -/
def ReadyNow (s : State) (c : Check) : Prop :=
  c.state = .closed ∧ c.orderReady = false ∧ c.ticketsOut = 0 ∧
    (∀ l ∈ c.lines, l.void = false → l.fire ≠ .timing ∧ l.fire ≠ .unsent ∧
      ((s.stand c.stand).policy = .onSettle → l.fire ≠ .held)) ∧
    (0 < c.ticketsFired ∨ ∃ l ∈ c.lines, l.void = false ∧ l.fire = .served)

/-- R110, R63: from `x` an event that `may` make the order-ready test of a check ended in `t`. While the close is on its way to the
router only an event that `isClose` makes it; where it passes the flag is set and ORDER_READY raised. -/
def TestedIf (may isClose : Prop) (h : Handle) (x t : State) : Prop :=
  (¬ may ∨ (¬ isClose ∧ .checkCloseTold h ∈ x.handovers) → t = x) ∧
    (may → (isClose ∨ .checkCloseTold h ∉ x.handovers) → ∀ c, x.check h = some c →
      (¬ ReadyNow x c → t = x) ∧
      (ReadyNow x c → ∃ ws, t.check h = some { c with orderReady := true } ∧ OtherChecksKept x t h ∧
        t = { x with
          cks := { x.cks with slots := t.cks.slots }
          handovers := x.handovers ++ [.noticeRaise { kind := .orderReady, subject := h.toWord, values := ws }] }))

/-- Every ticket record but one is as it was. -/
def OtherTicketsKept (s t : State) (i : Nat) : Prop := ∀ j, j ≠ i → t.ticketRec j = s.ticketRec j

/-! ### Terms of the claims about links and demand -/

/-- A link on whose line an answer goes at once and no other frame starts: nothing is being sent, no answer waits, and no frame of
the outbox may start (R145). -/
def Link.Quiet (l : Link) : Prop :=
  (∀ f, l.inFlight = some f → f.sent = true) ∧ l.answers = [] ∧
    (l.outbox = [] ∨ l.inFlight ≠ none ∨ l.refreshAwaited = true ∨ (l.state ≠ .live ∧ l.state ≠ .rejoining))

/-- Of the whole state only one link changed, to `l`, and these hand-overs were made. -/
def LinkBecame (st : StationId) (l : Link) (more : List Instr) (base t : State) : Prop :=
  t.link st = l ∧ (∀ a, a ≠ st → t.link a = base.link a) ∧
    t = { base with slc := t.slc, handovers := base.handovers ++ more }

/-- R145, R149: an answer with a code is sent at once on a quiet line, and waits behind a frame that is being sent. -/
def Link.AnswersWith (l : Link) (code : StatusCode) (l1 : Link) : Prop :=
  (l.Quiet → l1 = { l with wire := l.wire ++ [frameBytes (.status code)] }) ∧
    ((∃ f, l.inFlight = some f ∧ f.sent = false) → l1 = { l with answers := l.answers ++ [some code] })

/-- R156: the three effects of an announcement, as hand-overs. -/
def Announced (st : StationId) (new previous : LinkState) (cause count : Nat) (told : Option Nat) : List Instr :=
  [.linkStateTkr st new told, .gateTest,
    .noticeRaise
      { kind := .stationState, subject := Word.ofCount st.val,
        values := [Word.ofCount new.code, Word.ofCount previous.code, Word.ofCount cause, Word.ofCount count] }]

/-- R148: the frames of a refresh as they stand in the outbox; the last carries the rejoin mark given. -/
def RefreshOf (mark : Bool) : List Frame → List OutFrame
  | [] => []
  | [f] => [{ frame := f, rejoin := mark }]
  | f :: g :: l => { frame := f, rejoin := false } :: RefreshOf mark (g :: l)

/-- R152: a link gone DARK at a moment. -/
def Link.GoneDark (l : Link) (now : Nat) : Link :=
  { l with state := .dark, inFlight := none, outbox := [], refreshAwaited := false, failures := 0, busies := 0,
           statusDue := none, busyDue := none, probeDue := some (now + 2000) }

/-- R154 steps 2 to 7, R153: a link whose rejoin starts. -/
def Link.Rejoining (l : Link) (reported : Option Nat) (count : Nat) : Link :=
  { l with state := .rejoining, reported := reported, count := count, inFlight := none, statusDue := none, busyDue := none,
           failures := 0, busies := 0, probeDue := none, outbox := [], refreshAwaited := true, askNo := l.askNo + 1 }

/-- R162: a figure after a move towards a target, the quotient taken towards minus infinity. -/
def Moved (figure target k : Nat) : Nat := ((figure : Int) + Int.fdiv ((target : Int) - figure) ((2 ^ k : Nat) : Int)).toNat

/-- R163, R166, R167: a stand's record after its period was closed, with a period in force of `s` seconds. -/
def PaceAfter (p : Pace) (s : Nat) : Pace :=
  let fast := Moved p.filter.fast (16 * p.filter.count) p.kF
  let slow :=
    if p.opening = .normal then Moved p.filter.slow fast p.kL
    else if p.haltLimit < p.halt + 1 then fast else p.filter.slow
  let halt := if p.opening = .normal ∨ p.haltLimit < p.halt + 1 then 0 else p.halt + 1
  let d : Int := (fast : Int) - slow
  let quiet := if d < ((if p.level = .rush then p.rushOff else p.busyOff : Nat) : Int) then p.quiet + 1 else 0
  let next : Level × Nat :=
    if p.forced then (p.level, 0)
    else if p.level ≠ .rush ∧ (p.rushOn : Int) ≤ d then (.rush, 0)
    else if p.level = .normal ∧ (p.busyOn : Int) ≤ d then (.busy, 0)
    else if p.level = .normal then (.normal, 0)
    else if p.dwell ≤ quiet * s then (if p.level = .rush then .busy else .normal, 0)
    else (p.level, quiet)
  { p with filter := { count := 0, fast := fast, slow := slow }, halt := halt, level := next.1, quiet := next.2, opening := next.1 }

/-- R121: the focus minimum in force for a stand, in s: that of its level. -/
def FocusInForce (p : Pace) : Nat :=
  match p.level with
  | .normal => p.focusNormal
  | .busy => p.focusBusy
  | .rush => p.focusRush

/-- R124: the late limit in force for a stand, in s: that of its level. -/
def LateInForce (p : Pace) : Nat :=
  match p.level with
  | .normal => p.lateNormal
  | .busy => p.lateBusy
  | .rush => p.lateRush

/-- R121, R122 step 3: a shown ticket is past its focus minimum: its timer has run out, or its shown age, by the day clock, is at least
the minimum of its stand. -/
def PastFocus (s : State) (tk : Ticket) : Prop :=
  tk.focusDue = none ∨ ∃ shown n, tk.shownTime = some shown ∧ StandOfTicket s tk n ∧
    FocusInForce (s.pace n) * 1000 ≤ (s.exu.dayClock - shown).toNat

/-- R168, R174: a change of a stand's level as hand-overs: the notice, the router with the values in force, and ISU. -/
def LevelAnnounced (n : StandId) (p : Pace) (previous : Level) (cause : Nat) : List Instr :=
  [.noticeRaise
      { kind := .paceChange, subject := Word.ofCount n.val,
        values := [Word.ofCount p.level.code, Word.ofCount previous.code, Word.ofCount cause, Word.ofCount p.filter.fast,
          Word.ofCount p.filter.slow] },
    .paceChangeTkr n ⟨p.level, FocusInForce p, LateInForce p⟩, .paceChangeIsu n p.level]

end Sys2Proof.Machine
end

