-- ==== Sys2Proof/Certificates/Slice0/Obligations.lean ====
section
/-! DEFINITION. The statements for the provers, in the order of OBLIGATIONS.json: the step, the exchange region and the notices,
the Check Store, tenders, the Item and Stock Unit, the Ticket Router, the station links, Demand Watch, and the invariants. In
each, `s.taken c` is the state `s` in which the hand-over `c`, if one waits whose turn it is (R1), waits no more. -/

open Sys2Proof Sys2Proof.Machine

/-! ### The step -/

/-- The command at the front of the queue is carried out on the queue's rest (R1: taken in the order received, and whole). A
hand-over is taken where no earlier one of the same sender and receiver waits, and none is taken before such a one. The model's
choice (log entries 4 and 10): with no command waiting the oldest hand-over is carried out, with no event due a millisecond passes,
and a command whose turn has not come is an event of its own and takes no hand-over. -/
def Obligations.StepCarriesOutTheCommandInFront : Prop :=
  (∀ (s : State) (c : Instr) (rest : List Instr), s.pending = c :: rest → step s = exec c { s with pending := rest }) ∧
  (∀ s : State, s.pending = [] →
    (∀ c rest, s.handovers = c :: rest → step s = exec c s) ∧
    (nextEvent s = none →
      step s = .next { s with uptime := s.uptime + 1, exu := { s.exu with dayClock := s.exu.dayClock + 1 } })) ∧
  (∀ (s : State) (c d : Instr) (before after : List Instr), s.handovers = before ++ d :: after →
    (∀ e ∈ before, pathOf e ≠ pathOf c) →
    (d = c → s.taken c = { s with handovers := before ++ after }) ∧ (d ≠ c → pathOf d = pathOf c → s.taken c = s))

/-- Every command of the table ends in a next state, from every state, and leaves the commands that wait as they are. -/
def Obligations.EveryCommandCompletesAndKeepsTheQueue : Prop :=
  ∀ (c : Instr) (s : State), ∃ t, exec c s = .next t ∧ t.pending = s.pending

/-! ### The exchange region (R176 to R191) -/

/-- R177, R203: a word write at an offset of the window is the command of its register, CONTROL's RUN in bit 0 and its strobe in
bit 1; any other write is ignored. A read of a whole word gives ID, RUN, POST_STATE with the walker state of R184, NOTICE or FAULT
as R203 lays them out, and any other read 0. R179: while RUN is 0 a region register takes the value written, the low 12 bits of the
low base as 0, and a page that the write makes due opens in the same event (R195); while RUN is 1 the write is ignored. R178: RUN
takes the value written, but stays 0 while the region is unset. R189: FAULT's bits written as 1 are cleared and the others left.
R177: a write that the window ignores changes nothing. R183: a post is tested against the region and then against the list's room:
discarded with POST_RANGE (bit 1), discarded with POST_OVERFLOW (bit 0), or appended; nothing else changes, and whatever RUN
holds. -/
def Obligations.RegisterWritesActAtTheWindow : Prop :=
  ((∀ v : Word,
      registerWrite 0x04 4 v = (if v.getLsbD 1 then .softReset (v.getLsbD 0) else .run (v.getLsbD 0)) ∧
      registerWrite 0x08 4 v = .exchangeBaseLo v ∧ registerWrite 0x0C 4 v = .exchangeBaseHi v ∧
      registerWrite 0x10 4 v = .exchangeSize v ∧ registerWrite 0x14 4 v = .post v ∧ registerWrite 0x18 4 v = .notice v ∧
      registerWrite 0x1C 4 v = .fault v) ∧
    (∀ o w v, (w ≠ 4 ∨ o % 4 ≠ 0 ∨ o = 0 ∨ 0x20 ≤ o) → registerWrite o w v = .registerWriteIgnored o w v)) ∧
  (∀ s : State,
    s.readRegister 0x00 4 = 0x24600001 ∧ s.readRegister 0x04 4 = (if s.exu.run then 1 else 0) ∧
    s.readRegister 0x08 4 = 0 ∧ s.readRegister 0x0C 4 = 0 ∧ s.readRegister 0x10 4 = 0 ∧
    (s.exu.chains.length ≤ 8 → (s.readRegister 0x14 4).toNat = s.exu.chains.length +
      256 * (if s.exu.inWork ≠ none ∨ (s.exu.run = true ∧ s.exu.chains ≠ []) then 2 else if s.exu.run then 1 else 0)) ∧
    (s.readRegister 0x18 4).toNat = (if s.ntc.windowOpen then 1 else 0) + 65536 * s.ntc.sequence.toNat ∧
    (s.readRegister 0x1C 4).toNat = s.exu.fault.toNat ∧
    ∀ o w, (w ≠ 4 ∨ o % 4 ≠ 0 ∨ 0x20 ≤ o) → s.readRegister o w = 0) ∧
  (∀ (s : State) (v : Word),
    (s.exu.run = false →
      (∃ t, exec (.exchangeBaseLo v) s = .next (eventOpen t) ∧
        t = { s.taken (.exchangeBaseLo v) with exu := { s.exu with baseLo := t.exu.baseLo } } ∧
        t.exu.baseLo.toNat = v.toNat / 4096 * 4096) ∧
      exec (.exchangeBaseHi v) s = .next (eventOpen { s.taken (.exchangeBaseHi v) with exu := { s.exu with baseHi := v } }) ∧
      exec (.exchangeSize v) s = .next (eventOpen { s.taken (.exchangeSize v) with exu := { s.exu with size := v } })) ∧
    (s.exu.run = true →
      exec (.exchangeBaseLo v) s = .next (s.taken (.exchangeBaseLo v)) ∧
      exec (.exchangeBaseHi v) s = .next (s.taken (.exchangeBaseHi v)) ∧
      exec (.exchangeSize v) s = .next (s.taken (.exchangeSize v)))) ∧
  (∀ s : State,
    (∀ v, exec (.run v) s = .next { s.taken (.run v) with
      exu := { s.exu with run := v && decide (16 ≤ s.exu.size.toNat ∧ s.exu.size.toNat ≤ 4096) } }) ∧
    (∀ v : Word, ∃ t, exec (.fault v) s = .next t ∧
      t = { s.taken (.fault v) with exu := { s.exu with fault := t.exu.fault } } ∧
      ∀ i, i < 7 → t.exu.fault.getLsbD i = (s.exu.fault.getLsbD i && !v.getLsbD i)) ∧
    (∀ o w v, exec (.registerWriteIgnored o w v) s = .next (s.taken (.registerWriteIgnored o w v)))) ∧
  (∀ (s : State) (o : Word),
    (SlipOffset s o ∧ s.exu.chains.length < 8 →
      exec (.post o) s = .next { s.taken (.post o) with exu := { s.exu with chains := s.exu.chains ++ [o] } }) ∧
    (SlipOffset s o ∧ 8 ≤ s.exu.chains.length →
      exec (.post o) s = .next { s.taken (.post o) with exu := { s.exu with fault := s.exu.fault ||| 1 } }) ∧
    (¬ SlipOffset s o →
      exec (.post o) s = .next { s.taken (.post o) with exu := { s.exu with fault := s.exu.fault ||| 2 } }))

/-- R185 steps 1 to 6, R182: the walker takes the next slip of the chain in front: it writes TAKEN, hands on the request that the
slip carries, and changes nothing else of memory; a slip whose kind or authority is not defined is answered BAD_REQUEST instead.
The host's stores of the command come first (log entry 3). -/
def Obligations.WalkerTakesASlip : Prop :=
  ∀ (s0 s : State) (stores : List Host.Cell) (head : Word) (rest : List Word) (p : Place),
    s = hostStores stores (s0.taken (.walkerTakeSlip stores)) →
    s.exu.run = true → s.exu.inWork = none → s.exu.chains = head :: rest →
    p = s.exu.place.getD { next := head, slips := 0, refused := 0, headTag := 0 } →
    SlipOffset s p.next → s.byteAt (s.busAddress p.next.toNat) = 0x5C →
    s.byteAt (s.busAddress (p.next.toNat + 12)) = 0 → p.slips < 256 →
    ∃ t, exec (.walkerTakeSlip stores) s0 = .next t ∧
      t.wordAt (p.next.toNat + 12) = 1 ∧ BytesKeptBut s t (p.next.toNat + 12) 4 ∧
      (let place := { p with headTag := if p.slips = 0 then s.wordAt (p.next.toNat + 8) &&& 0xFFFF else p.headTag }
       let work : Work := { offset := p.next, link := s.wordAt (p.next.toNat + 4) }
       match authorityOf (s.byteAt (s.busAddress (p.next.toNat + 11))) with
       | none => t = { s with mem := t.mem, exu := { s.exu with
           place := some place, inWork := some work, answer := some (.refused .badRequest none) } }
       | some a =>
         match decodeRequest (s.byteAt (s.busAddress (p.next.toNat + 1)))
             { till := s.byteAt (s.busAddress (p.next.toNat + 10)), authority := a }
             ((List.range 12).map (fun i => s.wordAt (p.next.toNat + 16 + 4 * i))) with
         | none => t = { s with mem := t.mem, exu := { s.exu with
             place := some place, inWork := some work, answer := some (.refused .badRequest none) } }
         | some c => t = { s with mem := t.mem, handovers := s.handovers ++ [c], exu := { s.exu with
             place := some place, inWork := some work, answer := none } })

/-- R185 steps 1, 3 and 4, R186: a slip that fails a test abandons its chain there: outside the region, without the mark, not NEW,
or the 257th; nothing is written to memory. With RUN 0, a slip in work or no chain the walker takes none (R188). The host's stores
of the command come first (log entry 3). -/
def Obligations.WalkerAbandonsAtABadSlip : Prop :=
  ∀ (s0 s : State) (stores : List Host.Cell), s = hostStores stores (s0.taken (.walkerTakeSlip stores)) →
    ((s.exu.run = false ∨ s.exu.inWork ≠ none ∨ s.exu.chains = []) → exec (.walkerTakeSlip stores) s0 = .next s) ∧
    (∀ head rest p,
      s.exu.run = true → s.exu.inWork = none → s.exu.chains = head :: rest →
      p = s.exu.place.getD { next := head, slips := 0, refused := 0, headTag := 0 } →
      (¬ SlipOffset s p.next →
        ∃ t, exec (.walkerTakeSlip stores) s0 = .next t ∧ AbandonedAt .slipRange head p p.next s t) ∧
      (SlipOffset s p.next → s.byteAt (s.busAddress p.next.toNat) ≠ 0x5C →
        ∃ t, exec (.walkerTakeSlip stores) s0 = .next t ∧ AbandonedAt .slipFormat head p p.next s t) ∧
      (SlipOffset s p.next → s.byteAt (s.busAddress p.next.toNat) = 0x5C →
        ∀ q : Place, q = { p with headTag := if p.slips = 0 then s.wordAt (p.next.toNat + 8) &&& 0xFFFF else p.headTag } →
        (s.byteAt (s.busAddress (p.next.toNat + 12)) ≠ 0 →
          ∃ t, exec (.walkerTakeSlip stores) s0 = .next t ∧ AbandonedAt .slipNotNew head q p.next s t) ∧
        (s.byteAt (s.busAddress (p.next.toNat + 12)) = 0 → 256 ≤ p.slips →
          ∃ t, exec (.walkerTakeSlip stores) s0 = .next t ∧ AbandonedAt .chainLong head q p.next s t)))

/-- R182, R185 steps 7 to 9, R186: the answer is written into the slip, DONE with twelve body words or REFUSED with its reason and
no body word but the one a HELD refusal writes; the slip is counted; a link of 0 ends the chain with CHAIN_DONE, and any other is
the next slip. R176: no memory outside the region is written. The model's choice (log entry 54), where base and size have changed
while the slip was in work: both are written at the base as it then stands, and a slip that no longer lies in the region is not
written. -/
def Obligations.OutcomeIsWrittenAndTheLinkFollowed : Prop :=
  ∀ (s : State) (w : Work) (a : Answer) (head : Word) (rest : List Word) (p : Place),
    s.exu.inWork = some w → s.exu.answer = some a → s.exu.chains = head :: rest → s.exu.place = some p →
    ∃ t, exec .outcomeWrite s = .next t ∧
      (¬ SlipOffset s w.offset → t.mem = s.mem) ∧
      (SlipOffset s w.offset → match a with
        | .done results =>
          t.wordAt (w.offset.toNat + 12) = 2 ∧
          (∀ i, i < 12 → t.wordAt (w.offset.toNat + 16 + 4 * i) = results.getD i 0) ∧
          BytesKeptBut s t (w.offset.toNat + 12) 52
        | .refused reason word0 =>
          t.wordAt (w.offset.toNat + 12) = 3 + 256 * BitVec.ofNat 32 reason.code ∧
          (∀ x, word0 = some x → t.wordAt (w.offset.toNat + 16) = x ∧ BytesKeptBut s t (w.offset.toNat + 12) 8) ∧
          (word0 = none → BytesKeptBut s t (w.offset.toNat + 12) 4)) ∧
      (let n := p.refused + (match a with | .done _ => 0 | .refused _ _ => 1)
       (w.link = 0 →
          t = { s.taken .outcomeWrite with
            mem := t.mem
            exu := { s.exu with chains := rest, place := none, inWork := none, answer := none }
            handovers := (s.taken .outcomeWrite).handovers ++
              [.noticeRaise { kind := .chainDone, subject := head,
                              values := [p.headTag, Word.ofCount (p.slips + 1), Word.ofCount n] }] }) ∧
       (w.link ≠ 0 →
          t = { s.taken .outcomeWrite with
            mem := t.mem
            exu := { s.exu with place := some { p with next := w.link, slips := p.slips + 1, refused := n }, inWork := none,
                                answer := none } }))

/-- R187: a bus error by its access: the read of a slip, the write of TAKEN, a buffer write of READ_CHECK, READ_STATION or
EXPORT_CLOSED, and the write of the body abandon the chain with BUS_ERROR. A request stopped at its buffer write changes no state:
no check is marked EXPORTED. R197: a fill of the page that fails, with or without a chain, abandons none: it sets BUS_ERROR, keeps
the buffer, the sequence and the dropped mark, leaves window and line as they are, and starts the retry hold. The model's choice
(log entry 9): the operand says how many bytes reached memory, and a page-fill error is armed for the next fill; (log entry 54):
the body lies at the base as it then stands, though that may have changed while the slip was in work, and none is written where the
slip no longer lies in the region; (log entry 35, inferred): of a failed outcome write only body bytes reach memory. A record's
bytes are those of log entries 64 and 67. -/
def Obligations.BusErrorsAbandonTheChain : Prop :=
  (∀ (s0 : State) (head : Word) (rest : List Word) (p : Place), s0.exu.chains = head :: rest →
    p = s0.exu.place.getD { next := head, slips := 0, refused := 0, headTag := 0 } →
    (∀ s, s = s0.taken (.busError .slipRead) → s.exu.run = true → s.exu.inWork = none → SlipOffset s p.next →
      ∃ t, exec (.busError .slipRead) s0 = .next t ∧ AbandonedAt .busError head p p.next s t) ∧
    (∀ s reached, s = s0.taken (.busError (.takenWrite reached)) → s.exu.run = true → s.exu.inWork = none →
      SlipOffset s p.next → s.byteAt (s.busAddress p.next.toNat) = 0x5C → s.byteAt (s.busAddress (p.next.toNat + 12)) = 0 →
      p.slips < 256 →
      ∃ t, exec (.busError (.takenWrite reached)) s0 = .next t ∧
        AbandonedAt .busError head { p with headTag := if p.slips = 0 then s.wordAt (p.next.toNat + 8) &&& 0xFFFF else p.headTag }
          p.next { s with mem := t.mem } t ∧
        (reached = false → t.mem = s.mem) ∧ (reached = true → t.wordAt (p.next.toNat + 12) = 1) ∧
        BytesKeptBut s t (p.next.toNat + 12) 4) ∧
    (∀ w, s0.exu.inWork = some w →
      (∀ s n c o len bytes before after, s = s0.taken (.busError (.bufferWrite n)) → s.handovers = before ++ c :: after →
        (∀ d ∈ before, ¬ BufferRequest d ∧ pathOf d ≠ pathOf c) → WouldWrite s c o len bytes →
        ∃ t, exec (.busError (.bufferWrite n)) s0 = .next t ∧
          AbandonedAt .busError head p w.offset { s with mem := t.mem, handovers := before ++ after } t ∧
          BytesThere t o.toNat (bytes.take n) ∧ BytesKeptBut s t o.toNat (min n bytes.length)) ∧
      (∀ s n a, s = s0.taken (.busError (.outcomeWrite n)) → s.exu.answer = some a →
        ∃ t, exec (.busError (.outcomeWrite n)) s0 = .next t ∧
          AbandonedAt .busError head p w.offset { s with mem := t.mem } t ∧
          BytesKeptBut s t (w.offset.toNat + 16) (min n 48) ∧ (¬ SlipOffset s w.offset → t.mem = s.mem)))) ∧
  (∀ (s0 : State) (n : Nat), ∃ x t, exec (.busError (.pageFill n)) s0 = .next x ∧
    x = { s0.taken (.busError (.pageFill n)) with ntc := { s0.ntc with fillFails := some n } } ∧
    openPage x = t ∧
    t = { s0.taken (.busError (.pageFill n)) with
      mem := t.mem
      exu := { s0.exu with fault := s0.exu.fault ||| 64 }
      ntc := { s0.ntc with fillFails := none, holdDue := some (s0.uptime + 1000) } } ∧
    BytesKeptBut s0 t 0 (64 + 32 * min 32 s0.ntc.buffer.length))

/-- R185: NOP is done at once with no results. R198: ACK_RESTART clears the restarted mark and gives the last sequence. R199:
SET_NOTICES writes mode, interval and mask, loads or stops the report timer, and in EVENT mode opens a page that is due; below
SUPERVISOR, or with an operand out of its range, it changes nothing. The mask SET_NOTICES writes holds for every notice that EXU
takes after it, those already handed over too: an inference of the model (log entry 73). -/
def Obligations.NopNoticeSettingsAndAckRestart : Prop :=
  ∀ (s : State) (r : Requester),
    exec (.nop r) s = .next { s.taken (.nop r) with exu := { s.exu with answer := some (.done []) } } ∧
    exec (.ackRestart r) s = .next { s.taken (.ackRestart r) with
      ntc := { s.ntc with restarted := false }
      exu := { s.exu with answer := some (.done [s.ntc.sequence.setWidth 32]) } } ∧
    (∀ mode iv mask : Word, r.authority = .supervisor → 250 ≤ iv.toNat → iv.toNat ≤ 10000 → mask.toNat ≤ 65535 →
      (mode = 0 → exec (.setNotices r mode iv mask) s = .next ((eventOpen { s.taken (.setNotices r mode iv mask) with
          ntc := { s.ntc with mode := .event, interval := iv.toNat, mask := mask.setWidth 16, reportDue := none } }).answerWith
            (.done [mode, iv, mask]))) ∧
      (mode = 1 → exec (.setNotices r mode iv mask) s = .next { s.taken (.setNotices r mode iv mask) with
          ntc := { s.ntc with mode := .periodic, interval := iv.toNat, mask := mask.setWidth 16,
                              reportDue := some (s.uptime + iv.toNat) }
          exu := { s.exu with answer := some (.done [mode, iv, mask]) } }) ∧
      (2 ≤ mode.toNat → ∃ t, exec (.setNotices r mode iv mask) s = .next t ∧
          RefusedWith (.setNotices r mode iv mask) .range none s t)) ∧
    (∀ mode iv mask : Word, r.authority = .staff → ∃ t, exec (.setNotices r mode iv mask) s = .next t ∧
      RefusedWith (.setNotices r mode iv mask) .authority none s t) ∧
    (∀ mode iv mask : Word, r.authority = .supervisor → (iv.toNat < 250 ∨ 10000 < iv.toNat ∨ 65535 < mask.toNat) →
      ∃ t, exec (.setNotices r mode iv mask) s = .next t ∧ RefusedWith (.setNotices r mode iv mask) .range none s t)

/-! ### Notices (R192 to R200) -/

/-- R192 to R194: a masked notice is discarded; one that meets a buffered entry is merged in place, a WASTE adding its quantity;
one that meets none joins the tail, or is dropped while 128 are buffered. In EVENT mode a page that is then due opens (R195). While
a window is open none opens, as R195 says, where R198 can be read otherwise (log entry 55). The mask tested is the one in force
when EXU takes the notice, where R199 says 'raised': an inference of the model (log entry 73). -/
def Obligations.NoticesAreMergedBufferedOrDropped : Prop :=
  ∀ (s0 s : State) (n : Notice), s = s0.taken (.noticeRaise n) →
    (s.ntc.mask.getLsbD n.kind.code = true → exec (.noticeRaise n) s0 = .next s) ∧
    (s.ntc.mask.getLsbD n.kind.code = false →
      (∀ before e after, s.ntc.buffer = before ++ e :: after → (∀ x ∈ before, ¬ SameSubject x.notice n) →
        SameSubject e.notice n →
        exec (.noticeRaise n) s0 = .next (eventOpen { s with ntc := { s.ntc with buffer := before ++
          { notice :=
              if n.kind = .waste then
                { n with values := [n.values.getD 0 0,
                    Word.ofCount (min 4294967295 ((e.notice.values.getD 1 0).toNat + (n.values.getD 1 0).toNat))] }
              else n
            time := s.exu.dayClock } :: after } })) ∧
      ((∀ x ∈ s.ntc.buffer, ¬ SameSubject x.notice n) →
        (s.ntc.buffer.length < 128 → exec (.noticeRaise n) s0 = .next (eventOpen { s with ntc := { s.ntc with
          buffer := s.ntc.buffer ++ [{ notice := n, time := s.exu.dayClock }] } })) ∧
        (128 ≤ s.ntc.buffer.length → exec (.noticeRaise n) s0 = .next { s with ntc := { s.ntc with dropped := true } })))

/-- R198: a write of 1 closes an open window and lowers the line, and in EVENT mode the next page opens in the same event if one is
due; any other write is ignored. R195: the report timer is loaded again at its expiry and opens a page, even an empty one, while
the window is closed, the region set and no hold runs. R197: the end of the hold lets a page of EVENT mode open. The model's choice
(log entry 6): an expiry moves the clock on to the moment it was due. A close opens one page, and a notice taken after it waits for
the next close, as R195 says, where R198 can be read otherwise (log entry 55). -/
def Obligations.WindowCloseAndNoticeTimersOpenPages : Prop :=
  ∀ s : State,
    (∀ x : State, eventOpen x =
      if x.ntc.mode = .event ∧ x.ntc.windowOpen = false ∧ 16 ≤ x.exu.size.toNat ∧ x.exu.size.toNat ≤ 4096 ∧
        x.ntc.holdDue = none ∧ x.ntc.buffer ≠ [] then openPage x else x) ∧
    (∀ v : Word, (v = 1 ∧ s.ntc.windowOpen = true →
        exec (.notice v) s = .next (eventOpen { s.taken (.notice v) with
          ntc := { s.ntc with windowOpen := false, line := false } })) ∧
      (v ≠ 1 ∨ s.ntc.windowOpen = false → exec (.notice v) s = .next (s.taken (.notice v)))) ∧
    (∀ due x, s.ntc.reportDue = some due → x = (s.taken .reportTimerExpiry).advance (due - s.uptime) →
      exec .reportTimerExpiry s = .next
        (let y : State := { x with ntc := { s.ntc with reportDue := some (x.uptime + s.ntc.interval) } }
         if s.ntc.windowOpen = false ∧ 16 ≤ s.exu.size.toNat ∧ s.exu.size.toNat ≤ 4096 ∧ s.ntc.holdDue = none then openPage y
         else y)) ∧
    (∀ due x, s.ntc.holdDue = some due → x = (s.taken .fillRetryHoldEnd).advance (due - s.uptime) →
      exec .fillRetryHoldEnd s = .next (eventOpen { x with ntc := { s.ntc with holdDue := none } }))

/-- R196, R206: an opened page holds up to 32 entries from the head of the buffer and its header; those entries leave the buffer,
the window opens, the line rises, the sequence advances and the dropped mark is cleared; no other byte is written. R197: a fill
that fails keeps the buffer and the sequence, sets BUS_ERROR and starts a hold of 1,000 ms. The model's choice (log entry 9): a
fill fails where a BUS_ERROR armed it. -/
def Obligations.OpenedPageHoldsHeaderAndEntries : Prop :=
  ∀ s : State,
    (s.ntc.fillFails = none → ∃ t, openPage s = t ∧
      t = { s with mem := t.mem, ntc := { s.ntc with
        buffer := s.ntc.buffer.drop 32, windowOpen := true, line := true, sequence := s.ntc.sequence + 1, dropped := false } } ∧
      (∀ k e, k < 32 → s.ntc.buffer[k]? = some e →
        t.wordAt (64 + 32 * k) = Word.ofCount e.notice.kind.code ∧ t.wordAt (68 + 32 * k) = e.notice.subject ∧
        t.wordAt (72 + 32 * k) = e.time ∧ ∀ j, j < 5 → t.wordAt (76 + 32 * k + 4 * j) = e.notice.values.getD j 0) ∧
      t.byteAt (s.busAddress 0) = s.ntc.sequence.extractLsb' 0 8 + 1 ∧
      t.byteAt (s.busAddress 1) = (s.ntc.sequence + 1).extractLsb' 8 8 ∧
      (t.byteAt (s.busAddress 2)).toNat =
        (if s.ntc.restarted then 1 else 0) + (if s.ntc.dropped then 2 else 0) + (if s.exu.fault = 0 then 0 else 4) ∧
      (t.byteAt (s.busAddress 3)).toNat = min 32 s.ntc.buffer.length ∧
      t.wordAt 4 = s.exu.dayClock ∧
      (∀ st : StandId, t.byteAt (s.busAddress (8 + st.val)) = BitVec.ofNat 8 (s.pace st).level.code) ∧
      (∀ st : StationId, t.byteAt (s.busAddress (24 + st.val)) = BitVec.ofNat 8 (s.link st).state.code) ∧
      BytesKeptBut s t 0 (64 + 32 * min 32 s.ntc.buffer.length)) ∧
    (∀ n, s.ntc.fillFails = some n → ∃ t, openPage s = t ∧
      t = { s with
        mem := t.mem
        exu := { s.exu with fault := s.exu.fault ||| 64 }
        ntc := { s.ntc with fillFails := none, holdDue := some (s.uptime + 1000) } } ∧
      BytesKeptBut s t 0 (64 + 32 * min 32 s.ntc.buffer.length))

/-! ### The resets -/

/-- R191, R200, R2, R6, R8, R66, R75, R97, R143, R159, R165: what power-on reset leaves, host memory and the waiting commands
apart; and every invariant of the model holds there. The model's choice (log entry 29): host memory, the waiting commands and the
count of free values used are kept. -/
def Obligations.PowerOnResetAndItsInvariants : Prop :=
  (∀ s : State, exec .powerOnReset s = .next { State.reset with
    mem := s.mem, pending := s.pending, freeValues := s.freeValues }) ∧
  (let t := State.reset
   t.exu.size = 0 ∧ t.exu.run = false ∧ t.exu.chains = [] ∧ t.exu.fault = 0 ∧ t.exu.dayClock = 0 ∧ t.ntc.restarted = true ∧
   t.ntc.mode = .event ∧ t.ntc.interval = 1000 ∧ t.ntc.sequence = 0 ∧ t.ntc.windowOpen = false ∧
   (∀ n, (t.stand n).configured = false ∧ (t.stand n).state = .closed ∧ (t.stand n).nextDisplay = 1) ∧
   (∀ n, (t.till n).isOpen = false) ∧ (∀ k, t.checkSlot k = { gen := 0, check := none }) ∧
   (∀ x, (t.item x).isDefined = false ∧ (t.item x).onHand = 0) ∧ (∀ b, (t.batch b).mode = .off ∧ (t.batch b).lots = []) ∧
   (∀ i, t.ticketAt i = none) ∧ (∀ st, (t.link st).state = .offline ∧ (t.link st).hint = 4) ∧ t.dmw.period = 10 ∧
   (∀ n, (t.pace n).level = .normal ∧ (t.pace n).busyOn = 320)) ∧
  ExchangeOk State.reset ∧ StockOk State.reset ∧ HoldingOk State.reset ∧ EndedListed State.reset ∧ MoneyOk State.reset ∧ QueuesOk State.reset

/-- R190, R31, R91, R116, R158, R175, R200: what soft reset leaves in every block; a batch slot keeps its whole configuration, and
the loaded timers of PACED slots enter HELD, as no link is LIVE then. An inference of the model (log entry 32): the hand-overs not
yet taken, the answer not yet written and the answers not yet sent are dropped. The model's choice (log entry 53): an inactive link
is otherwise kept whole. -/
def Obligations.SoftResetOfEveryBlock : Prop :=
  ∀ (s : State) (run : Bool), ∃ t, exec (.softReset run) s = .next t ∧ t.mem = s.mem ∧ t.uptime = s.uptime ∧ t.handovers = [] ∧
    t.exu = { s.exu with
      run := run && decide (16 ≤ s.exu.size.toNat ∧ s.exu.size.toNat ≤ 4096), chains := [], place := none, inWork := none,
      answer := none, fault := 0, dayClock := 0 } ∧
    t.ntc = { s.ntc with
      buffer := [], dropped := false, windowOpen := false, line := false, restarted := true, holdDue := none, fillFails := none,
      reportDue := if s.ntc.mode = .periodic then some (s.uptime + s.ntc.interval) else none } ∧
    (∀ n, t.stand n = { s.stand n with
      cutOff := false, nextDisplay := 1, state := if (s.stand n).configured then .opened else .closed }) ∧
    (∀ n, t.till n = { s.till n with held := [] }) ∧
    (∀ k, t.checkSlot k = { gen := (s.checkSlot k).gen + (if (s.checkSlot k).check.isSome then 1 else 0), check := none }) ∧
    t.cks.closedList = [] ∧ t.cks.exportedList = [] ∧
    (∀ x, t.item x = { s.item x with reserved := 0 }) ∧
    (∀ b, t.batch b = { s.batch b with
        lots := [], outstanding := none, leadTimer := .idle, batchTimer := (t.batch b).batchTimer
        cycle := if (s.batch b).mode = .paced then max 30 (s.batch b).interval else (s.batch b).cycle
        pendingInterval := if (s.batch b).mode = .paced then none else (s.batch b).pendingInterval } ∧
      ((s.batch b).mode = .paced →
        LoadedWith t b (t.batch b).batchTimer (max 30 (s.batch b).interval * 1000) ∧
        ((∀ st, (s.link st).active = false → (s.link st).state ≠ .live) →
          (t.batch b).batchTimer = .held (max 30 (s.batch b).interval * 1000))) ∧
      ((s.batch b).mode ≠ .paced → (t.batch b).batchTimer = .idle)) ∧
    (∀ n, t.factor n = .normal) ∧
    (∀ i, t.ticketRec i = { gen := (s.ticketRec i).gen + (if (s.ticketAt i).isSome then 1 else 0), ticket := none }) ∧
    (∀ st, t.queues st = {}) ∧ t.tkr.delays = [] ∧ t.tkr.unsent = [] ∧
    (∀ st, (s.link st).active = true → t.link st = { s.link st with
      state := .starting, count := (s.link st).hint, reported := none, outbox := [], inFlight := none, refreshAwaited := false
      failures := 0, busies := 0, statusDue := none, busyDue := none, probeDue := some (s.uptime + 2000), receiver := .hunting
      answers := [] }) ∧
    (∀ st, (s.link st).active = false → t.link st = { s.link st with answers := [] }) ∧
    (∀ n, t.pace n = { s.pace n with
      filter := {}, level := .normal, opening := .normal, quiet := 0, halt := 0, forced := false }) ∧
    (∀ b, t.demand b = {}) ∧ t.dmw.period = s.dmw.pendingPeriod.getD s.dmw.period ∧ t.dmw.pendingPeriod = none ∧
    t.dmw.sampleDue = s.uptime + t.dmw.period * 1000

/-! ### Checks and holding (R14 to R19) -/

/-- R15, R9, R8, R14: OPEN_CHECK from an open till of an OPEN stand takes the lowest free slot, or the oldest exported check's
where none is free, and puts the new check on the till's held list; with no slot to be had it is refused NO_SLOT. -/
def Obligations.OpenCheckTakesTheLowestSlot : Prop :=
  ∀ (s : State) (r : Requester) (cls : TicketClass) (n : Nat) (stand : StandId) (cmd : Instr),
    cmd = .openCheck r (Word.ofCount cls.rank) → r.till.toNat = n → OpenTill s n stand →
    (s.stand stand).state = .opened → (s.till n).held.length < 8 →
    (let opens := fun (h : Handle) (more : List Instr) (t : State) =>
      exec cmd s = .next t ∧ DoneWith [h.toWord] s t ∧
      (∃ c, t.check h = some c ∧ c.stand = stand ∧ c.state = .opened ∧ c.holder = some n ∧ c.priority = cls ∧
        c.rates = (s.stand stand).rates ∧ c.levy = (s.stand stand).levy ∧ c.increment = (s.stand stand).increment ∧
        c.weights = [1] ∧ c.lines = [] ∧ c.tenders = [] ∧ c.due.total = 0 ∧ c.due.complete = true ∧ c.ticketsOut = 0 ∧
        c.ticketsFired = 0 ∧ c.orderReady = false ∧ c.closeTime = none) ∧
      t.till n = { s.till n with held := (s.till n).held ++ [h] } ∧ OtherTillsKept s t n ∧
      t = { s.taken cmd with exu := t.exu, cks := t.cks, handovers := (s.taken cmd).handovers ++ more }
    (∀ k : BitVec 10, (∀ j, j < k → (s.checkSlot j).check ≠ none) → (s.checkSlot k).check = none →
      ∃ t, opens { slot := k, gen := (s.checkSlot k).gen } [] t ∧ StoreKeptBut s t ∧
        OtherChecksKept s t { slot := k, gen := (s.checkSlot k).gen }) ∧
    ((∀ k, (s.checkSlot k).check ≠ none) →
      (∀ h more c0, s.cks.exportedList = h :: more → s.check h = some c0 →
        ∃ t, opens { slot := h.slot, gen := h.gen + 1 } [.slotFreed h] t ∧ t.check h = none ∧ t.cks.exportedList = more ∧
          t.cks.closedList = s.cks.closedList ∧
          ∀ g, g ≠ h → g ≠ { slot := h.slot, gen := h.gen + 1 } → t.check g = s.check g) ∧
      (s.cks.exportedList = [] → ∃ t, exec cmd s = .next t ∧ RefusedWith cmd .noSlot none s t)))

/-- R16 to R18: PARK leaves a check with no holder; PICK_UP takes a parked check of the till's own stand; FORCE_PICK_UP, with
SUPERVISOR, takes it from another till too and raises CHECK_TAKEN. A till that holds it already is done with no change, one that
holds 8 is refused TILL_FULL by both, and PICK_UP of another till's check is refused HELD. FORCE_PICK_UP by STAFF is refused
AUTHORITY. -/
def Obligations.ParkPickUpAndForcePickUp : Prop :=
  ∀ (s : State) (r : Requester) (w : Word) (h : Handle) (c : Check),
    (r.authority = .staff → ∃ t, exec (.forcePickUp r w) s = .next t ∧ RefusedWith (.forcePickUp r w) .authority none s t) ∧
    (HeldBy s r w h c → ∃ t, exec (.park r w) s = .next t ∧ DoneWith [] s t ∧ t.check h = some { c with holder := none } ∧
      t.till r.till.toNat = { s.till r.till.toNat with held := (s.till r.till.toNat).held.erase h } ∧
      OtherTillsKept s t r.till.toNat ∧ OtherChecksKept s t h ∧ StoreKeptBut s t ∧
      t = { s.taken (.park r w) with exu := t.exu, cks := t.cks }) ∧
    (∀ n, r.till.toNat = n → OpenTill s n c.stand → handleOf w = some h → s.check h = some c → c.ended = false →
      (let takes := fun (cmd : Instr) (more : List Instr) (t : State) =>
        exec cmd s = .next t ∧ DoneWith [] s t ∧ t.check h = some { c with holder := some n } ∧ OtherChecksKept s t h ∧
        (t.till n).held = (s.till n).held ++ [h] ∧ StoreKeptBut s t ∧
        t = { s.taken cmd with exu := t.exu, cks := t.cks, handovers := (s.taken cmd).handovers ++ more }
       (c.holder = some n →
         exec (.pickUp r w) s = .next ((s.taken (.pickUp r w)).answerWith (.done [])) ∧
         (r.authority = .supervisor → exec (.forcePickUp r w) s = .next ((s.taken (.forcePickUp r w)).answerWith (.done [])))) ∧
       (c.holder = none → (s.till n).held.length < 8 →
         (∃ t, takes (.pickUp r w) [] t ∧ OtherTillsKept s t n) ∧
         (r.authority = .supervisor → ∃ t, takes (.forcePickUp r w) [] t ∧ OtherTillsKept s t n)) ∧
       (c.holder = none → 8 ≤ (s.till n).held.length →
         ∃ t, exec (.pickUp r w) s = .next t ∧ RefusedWith (.pickUp r w) .tillFull none s t) ∧
       (c.holder ≠ some n → 8 ≤ (s.till n).held.length → r.authority = .supervisor →
         ∃ t, exec (.forcePickUp r w) s = .next t ∧ RefusedWith (.forcePickUp r w) .tillFull none s t) ∧
       (∀ m, m ≠ n → c.holder = some m →
         (∃ t, exec (.pickUp r w) s = .next t ∧ RefusedWith (.pickUp r w) .held (some (Word.ofCount m)) s t) ∧
         (r.authority = .supervisor → (s.till n).held.length < 8 →
           ∃ t, takes (.forcePickUp r w)
               [.noticeRaise { kind := .checkTaken, subject := h.toWord, values := [Word.ofCount m, Word.ofCount n] }] t ∧
             (t.till m).held = (s.till m).held.erase h ∧ ∀ k, k ≠ n → k ≠ m → t.till k = s.till k))))

/-- R19, R17, R8: a request that only the holder may make, with any operands in their ranges, is refused RANGE where the word is no
handle, NO_CHECK where the handle is not live, CHECK_CLOSED on an ended check, NOT_HELD on a parked one, and HELD, with the holding
till in body word 0, on a check that another till holds; each refusal changes nothing else. So is FIRE, which only an EXPORTED
check refuses CHECK_CLOSED (R102). The model's choices are part of what is in range: a SET_SHARE mask of 257..511, bit 8 with payer
bits (log entry 15), a fire mode word IMMEDIATE with any upper half (log entry 16), and any word in a delta past the modifier count
(log entry 41). -/
def Obligations.OnlyTheHolderMayChangeACheck : Prop :=
  ∀ (s : State) (r : Requester) (w : Word) (cmd : Instr),
    (let fire := ∃ g : Word, 1 ≤ g.toNat ∧ g.toNat ≤ 3 ∧ cmd = .fire r w g
     HolderRequest r w cmd ∨ fire →
      (handleOf w = none → ∃ t, exec cmd s = .next t ∧ RefusedWith cmd .range none s t) ∧
      (∀ h, handleOf w = some h →
        (s.check h = none → ∃ t, exec cmd s = .next t ∧ RefusedWith cmd .noCheck none s t) ∧
        (∀ c, s.check h = some c →
          (c.state = .exported ∨ (c.state = .closed ∧ ¬ fire) →
            ∃ t, exec cmd s = .next t ∧ RefusedWith cmd .checkClosed none s t) ∧
          (c.ended = false → c.holder = none → ∃ t, exec cmd s = .next t ∧ RefusedWith cmd .notHeld none s t) ∧
          (∀ m, c.ended = false → c.holder = some m → m ≠ r.till.toNat →
            ∃ t, exec cmd s = .next t ∧ RefusedWith cmd .held (some (Word.ofCount m)) s t))))

/-! ### Lines (R20 to R25, R33) -/

/-- R20, R21, R13, R12: ADD_LINE of a defined item to an OPEN check appends the line with the item's price, tax class and marks,
builds the due table afresh, reserves a tracked item's stock, and in an ON_ENTRY stand hands an IMMEDIATE line over as a firing and
a DELAYED one to the delay list. It is refused NO_ITEM, CUT_OFF, LINE_FULL or OUT_OF_STOCK as R20 says, and on a PAYING check
SPLIT_FROZEN. With no line record free, and the lists in order, the oldest exported checks are reclaimed up to the first that has a
line, once the tests have passed; with no such check it is refused POOL_FULL. What CKS has handed to ISU before is carried out
there before the reserve (R1; asked within the step, log entry 5). The model's choices are part of what is in range: an IMMEDIATE
fire mode word with any upper half (log entry 16), and any word in a delta past the modifier count (log entry 41). -/
def Obligations.AddLineEntersPricesAndReserves : Prop :=
  ∀ (s : State) (r : Requester) (w iw qw fm mc d0 d1 d2 d3 : Word) (h : Handle) (c : Check) (x : ItemId) (mode : FireMode)
    (ds : List Int) (cmd : Instr),
    cmd = .addLine r w iw qw fm mc d0 d1 d2 d3 → HeldBy s r w h c →
    iw.toNat = x.val → 1 ≤ qw.toNat → qw.toNat ≤ 99 → fireModeOf fm = some mode → deltasOf mc [d0, d1, d2, d3] = some ds →
    (c.state = .paying → ∃ t, exec cmd s = .next t ∧ RefusedWith cmd .splitFrozen none s t) ∧
    (c.state = .opened →
      ((s.item x).isDefined = false → ∃ t, exec cmd s = .next t ∧ RefusedWith cmd .noItem none s t) ∧
      ((s.item x).isDefined = true →
        ((s.item x).restricted = true → (s.stand c.stand).cutOff = true →
          ∃ t, exec cmd s = .next t ∧ RefusedWith cmd .cutOff none s t) ∧
        ((s.item x).restricted = false ∨ (s.stand c.stand).cutOff = false →
          (40 ≤ c.lines.length → ∃ t, exec cmd s = .next t ∧ RefusedWith cmd .lineFull none s t) ∧
          (c.lines.length < 40 → 8192 ≤ s.linesInUse →
            (∀ g ∈ s.cks.exportedList, ∀ e, s.check g = some e → e.lines = []) →
            ∃ t, exec cmd s = .next t ∧ RefusedWith cmd .poolFull none s t) ∧
          (∀ gone kept, c.lines.length < 40 → s.cks.exportedList = gone ++ kept →
            ((s.linesInUse < 8192 ∧ gone = []) ∨
              (8192 ≤ s.linesInUse ∧ HoldingOk s ∧ ∃ front last e, gone = front ++ [last] ∧
                (∀ g ∈ front, ∀ d, s.check g = some d → d.lines = []) ∧ s.check last = some e ∧ e.lines ≠ [])) →
            ((s.item x).tracked = true → (s.item x).onHand - (s.item x).reserved < qw.toNat →
              ∃ t u, exec cmd s = .next t ∧ AskedOfIsu True (s.taken cmd) u ∧
                t = { u with exu := { s.exu with answer := some (.refused .outOfStock none) } }) ∧
            ((s.item x).tracked = false ∨ qw.toNat ≤ (s.item x).onHand - (s.item x).reserved →
              ∃ t u, exec cmd s = .next t ∧ AskedOfIsu ((s.item x).tracked = true) (s.taken cmd) u ∧
                DoneWith [Word.ofCount c.lines.length] s t ∧
                t.check h = some (Rebuilt c (c.lines ++
                  [{ item := x, quantity := qw.toNat, price := (s.item x).price, deltas := ds, taxClass := (s.item x).taxClass,
                     restricted := (s.item x).restricted, stockMark := (s.item x).tracked, share := .all, void := false,
                     comp := false, mode := mode, fire := .held, ticket := none, drawn := false }]) c.weights) ∧
                (∀ g ∈ gone, t.check g = none) ∧ (∀ g, g ≠ h → g ∉ gone → t.check g = s.check g) ∧
                t.cks = { s.cks with slots := t.cks.slots, exportedList := kept, speCursor := t.cks.speCursor } ∧
                (let new := if (s.item x).tracked then { s.item x with reserved := (s.item x).reserved + qw.toNat } else s.item x
                 t.item x = new ∧ (∀ y, y ≠ x → t.item y = s.item y) ∧
                 t = { u with
                   exu := t.exu, cks := t.cks, isu := { u.isu with items := t.isu.items }
                   handovers := u.handovers ++
                     (if (s.item x).tracked then (availabilityNotices (s.item x) new).map (availabilityNotice x new) else []) ++
                     gone.map .slotFreed ++
                     (if (s.stand c.stand).policy = .onEntry then
                        match mode with
                        | .immediate => [.firing h [c.lines.length] .entry]
                        | .delayed d => [.delayListJoin { check := h, line := c.lines.length }
                            (s.exu.dayClock + BitVec.ofNat 32 (d * 1000))]
                        | .onCall _ => []
                      else []) }))))))

/-- R22, R23, R24: VOID_LINE sets a live line's void mark, builds the due table afresh, releases the stock of a marked line and
tells the kitchen; a line that has fired needs SUPERVISOR. What CKS has handed to ISU before is carried out there before the
release (R1; asked within the step, log entry 5). COMP_LINE, with SUPERVISOR, sets the comp mark and builds the due table afresh,
and on a comped line changes nothing. R56: on a PAYING check each is refused SPLIT_FROZEN. The model's choice (log entry 39): the
hand-over carries the line's stand, ticket reference and draw flag. -/
def Obligations.VoidLineAndCompLine : Prop :=
  (∀ (s : State) (r : Requester) (w iw : Word) (h : Handle) (c : Check), HeldBy s r w h c → c.state = .paying → iw.toNat ≤ 39 →
    (∃ t, exec (.voidLine r w iw) s = .next t ∧ RefusedWith (.voidLine r w iw) .splitFrozen none s t) ∧
    (r.authority = .supervisor →
      ∃ t, exec (.compLine r w iw) s = .next t ∧ RefusedWith (.compLine r w iw) .splitFrozen none s t)) ∧
  ∀ (s : State) (r : Requester) (w iw : Word) (h : Handle) (c : Check) (l : Line), HeldBy s r w h c → c.state = .opened →
    iw.toNat ≤ 39 → c.lines[iw.toNat]? = some l → l.void = false →
    (r.authority = .staff → (l.fire = .fired ∨ l.fire = .served ∨ l.fire = .unsent) →
      ∃ t, exec (.voidLine r w iw) s = .next t ∧ RefusedWith (.voidLine r w iw) .authority none s t) ∧
    (r.authority = .supervisor ∨ l.fire = .held ∨ l.fire = .timing →
      ∃ t u, exec (.voidLine r w iw) s = .next t ∧ AskedOfIsu (l.stockMark = true) (s.taken (.voidLine r w iw)) u ∧
        DoneWith [] s t ∧ t.check h = some (Rebuilt c (c.lines.set iw.toNat { l with void := true }) c.weights) ∧ OtherChecksKept s t h ∧
        StoreKeptBut s t ∧ t.cks.tills = s.cks.tills ∧
        (let i := s.item l.item
         let new := if l.stockMark then { i with reserved := i.reserved - l.quantity } else i
         t.item l.item = new ∧ (∀ y, y ≠ l.item → t.item y = s.item y) ∧
         t = { u with
           exu := t.exu, cks := t.cks, isu := { u.isu with items := t.isu.items }
           handovers := u.handovers ++
             (if l.stockMark ∧ i.tracked then (availabilityNotices i new).map (availabilityNotice l.item new) else []) ++
             [.kitchenVoid { check := h, line := iw.toNat } l.item l.quantity
               { was := l.fire, stand := c.stand, ticket := l.ticket, drawn := l.drawn }] })) ∧
    (r.authority = .staff → ∃ t, exec (.compLine r w iw) s = .next t ∧ RefusedWith (.compLine r w iw) .authority none s t) ∧
    (r.authority = .supervisor →
      (l.comp = true → exec (.compLine r w iw) s = .next ((s.taken (.compLine r w iw)).answerWith (.done []))) ∧
      (l.comp = false → ∃ t, exec (.compLine r w iw) s = .next t ∧ DoneWith [] s t ∧
        t.check h = some (Rebuilt c (c.lines.set iw.toNat { l with comp := true }) c.weights) ∧ OtherChecksKept s t h ∧
        StoreKeptBut s t ∧ t.cks.tills = s.cks.tills ∧ t = { s.taken (.compLine r w iw) with exu := t.exu, cks := t.cks }))

/-- R25, R33: SET_SHARE writes a line's mask (ALL, a set of payers, or UNASSIGNED for the empty set) and SET_SPLIT the plan, each
building the due table afresh; a mask that names a payer the plan has not is refused BAD_MASK. R56: on a PAYING check each is
refused SPLIT_FROZEN. -/
def Obligations.SetShareAndSetSplit : Prop :=
  (∀ (s : State) (r : Requester) (w : Word) (h : Handle) (c : Check), HeldBy s r w h c → c.state = .paying →
    (∀ iw m : Word, iw.toNat ≤ 39 → m.toNat ≤ 256 →
      ∃ t, exec (.setShare r w iw m) s = .next t ∧ RefusedWith (.setShare r w iw m) .splitFrozen none s t) ∧
    (∀ (pw w0 w1 w2 w3 w4 w5 w6 w7 : Word) (cmd : Instr), cmd = .setSplit r w pw w0 w1 w2 w3 w4 w5 w6 w7 →
      1 ≤ pw.toNat → pw.toNat ≤ 8 →
      (∀ x ∈ [w0, w1, w2, w3, w4, w5, w6, w7].take pw.toNat, 1 ≤ x.toNat ∧ x.toNat ≤ 15) →
      ∃ t, exec cmd s = .next t ∧ RefusedWith cmd .splitFrozen none s t)) ∧
  ∀ (s : State) (r : Requester) (w : Word) (h : Handle) (c : Check), HeldBy s r w h c → c.state = .opened →
    (∀ (iw m : Word) (l : Line) (sh : Share), iw.toNat ≤ 39 → c.lines[iw.toNat]? = some l → l.void = false →
      ((m = 0x100 ∧ sh = .all) ∨ (m = 0 ∧ sh = .unassigned) ∨
        (1 ≤ m.toNat ∧ m.toNat ≤ 255 ∧ sh = .payers (m.setWidth 8))) →
      ((∀ p, m.toNat ≤ 255 → m.getLsbD p = true → p < c.weights.length) →
        ∃ t, exec (.setShare r w iw m) s = .next t ∧ DoneWith [] s t ∧
          t.check h = some (Rebuilt c (c.lines.set iw.toNat { l with share := sh }) c.weights) ∧ OtherChecksKept s t h ∧
          StoreKeptBut s t ∧ t.cks.tills = s.cks.tills ∧ t = { s.taken (.setShare r w iw m) with exu := t.exu, cks := t.cks }) ∧
      (∀ p, m.toNat ≤ 255 → m.getLsbD p = true → c.weights.length ≤ p →
        ∃ t, exec (.setShare r w iw m) s = .next t ∧ RefusedWith (.setShare r w iw m) .badMask none s t)) ∧
    (∀ (pw w0 w1 w2 w3 w4 w5 w6 w7 : Word) (ws : List Word) (cmd : Instr), cmd = .setSplit r w pw w0 w1 w2 w3 w4 w5 w6 w7 →
      1 ≤ pw.toNat → pw.toNat ≤ 8 → ws = [w0, w1, w2, w3, w4, w5, w6, w7].take pw.toNat →
      (∀ x ∈ ws, 1 ≤ x.toNat ∧ x.toNat ≤ 15) →
      ((∀ l ∈ c.lines, l.void = false → ∀ set p, l.share = .payers set → set.getLsbD p = true → p < pw.toNat) →
        ∃ t, exec cmd s = .next t ∧ DoneWith [] s t ∧ t.check h = some (Rebuilt c c.lines (ws.map BitVec.toNat)) ∧
          OtherChecksKept s t h ∧ StoreKeptBut s t ∧ t.cks.tills = s.cks.tills ∧
          t = { s.taken cmd with exu := t.exu, cks := t.cks }) ∧
      (∀ l ∈ c.lines, ∀ set p, l.void = false → l.share = .payers set → set.getLsbD p = true → pw.toNat ≤ p →
        ∃ t, exec cmd s = .next t ∧ RefusedWith cmd .badMask none s t))

/-! ### Reading and export (R26, R29, R137) -/

/-- R26, R207, R137: READ_CHECK writes a live check's record, and READ_STATION a station's header and as many whole records as fit,
into a buffer of the region with room, and no other byte; without the room each is refused NO_ROOM, and outside the region RANGE.
R44, R69, R173, R208: QUOTE gives a COMPLETE table's total, payer count and dues, and is refused UNASSIGNED otherwise; READ_ITEM
gives an item's record and counts, and its slot's mode, timers, lots and ticket; READ_DEMAND a stand's or a slot's figures; these
change nothing but the answer. The model's choice (log entry 18): words 8 to 10 of READ_ITEM are free values where the item has no
slot, and only the count of free values used then moves on. A buffer of length 0 overlaps no slip (log entry 47), and a check's
record gives a payer the plan has not weight 0 (log entry 64), and 0 for a delta a line has not and for an IMMEDIATE line's delay
(log entry 67). The byte of the completeness mark is an inference (log entry 74). -/
def Obligations.ReadRequestsReportTheState : Prop :=
  (∀ (s : State) (r : Requester) (w o n : Word),
    (∀ h c, handleOf w = some h → s.check h = some c → c.due.rows.length = c.weights.length → BufferOffset s o n →
      (let len := 64 + 32 * c.lines.length + 44 + 40 * c.weights.length + 32 * c.tenders.length
       (len ≤ n.toNat → ∃ t, exec (.readCheck r w o n) s = .next t ∧ DoneWith [Word.ofCount len] s t ∧
          t = { s.taken (.readCheck r w o n) with exu := t.exu, mem := t.mem } ∧
          BytesThere t o.toNat (checkRecord h c) ∧ t.wordAt o.toNat = Word.ofCount len ∧ t.wordAt (o.toNat + 4) = h.toWord ∧
          BytesKeptBut s t o.toNat len) ∧
       (n.toNat < len → ∃ t, exec (.readCheck r w o n) s = .next t ∧ RefusedWith (.readCheck r w o n) .noRoom none s t))) ∧
    (∀ st : StationId, w.toNat = st.val → BufferOffset s o n →
      (16 ≤ n.toNat → ∃ t, exec (.readStation r w o n) s = .next t ∧
        (let fit := recordsFit (n.toNat - 16) (stationRecords s st)
         DoneWith [Word.ofCount (16 + fit.flatten.length), Word.ofCount fit.length,
           Word.ofCount ((stationRecords s st).length - fit.length)] s t ∧
         fit <+: stationRecords s st ∧ 16 + fit.flatten.length ≤ n.toNat ∧
         (∀ next, (stationRecords s st)[fit.length]? = some next → n.toNat < 16 + fit.flatten.length + next.length) ∧
         t = { s.taken (.readStation r w o n) with exu := t.exu, mem := t.mem } ∧
         BytesThere t o.toNat (stationHeader s st ++ fit.flatten) ∧ BytesKeptBut s t o.toNat (16 + fit.flatten.length))) ∧
      (n.toNat < 16 → ∃ t, exec (.readStation r w o n) s = .next t ∧ RefusedWith (.readStation r w o n) .noRoom none s t)) ∧
    (¬ BufferOffset s o n → w.toNat < 24 →
      (∃ t, exec (.readCheck r w o n) s = .next t ∧ RefusedWith (.readCheck r w o n) .range none s t) ∧
      (∃ t, exec (.readStation r w o n) s = .next t ∧ RefusedWith (.readStation r w o n) .range none s t))) ∧
  (∀ (s : State) (r : Requester) (w : Word),
    (∀ h c, handleOf w = some h → s.check h = some c →
      (c.due.complete = true → ∃ t ws, exec (.quote r w) s = .next t ∧ DoneWith ws s t ∧ ws.length = 12 ∧
        ws.getD 0 0 = Word.ofCount c.due.total ∧ ws.getD 1 0 = Word.ofCount c.weights.length ∧
        (∀ p row, p < 8 → c.due.rows[p]? = some row → ws.getD (2 + p) 0 = Word.ofCount row.due) ∧
        (∀ p, p < 8 → c.due.rows.length ≤ p → ws.getD (2 + p) 0 = 0) ∧
        t = { s.taken (.quote r w) with exu := t.exu }) ∧
      (c.due.complete = false → ∃ t, exec (.quote r w) s = .next t ∧ RefusedWith (.quote r w) .unassigned none s t)) ∧
    (∀ x : ItemId, w.toNat = x.val → ∃ t ws, exec (.readItem r w) s = .next t ∧ DoneWith ws s t ∧ ws.length = 12 ∧
      ws.getD 0 0 = Word.ofCount (s.item x).price ∧
      (ws.getD 1 0).toNat = (s.item x).taxClass.val + 256 * (s.item x).prepRoute.val +
        (if (s.item x).isDefined then 65536 else 0) + (if (s.item x).restricted then 131072 else 0) +
        (if (s.item x).tracked then 262144 else 0) ∧
      ws.getD 2 0 = Word.ofCount (s.item x).onHand ∧ ws.getD 3 0 = Word.ofCount (s.item x).reserved ∧
      ws.getD 4 0 = (if (s.item x).tracked then Word.ofCount ((s.item x).onHand - (s.item x).reserved) else 0) ∧
      ws.getD 5 0 = Word.ofCount (s.item x).lowMark ∧
      ((s.item x).slot = none → ws.getD 6 0 = 0xFFFFFFFF ∧ ws.getD 7 0 = 0 ∧ ws.getD 11 0 = 0xFFFFFFFF) ∧
      (∀ b, (s.item x).slot = some b → ws.getD 6 0 = Word.ofCount b.val ∧
        (ws.getD 7 0).toNat = (match (s.batch b).mode with | .off => 0 | .paced => 1 | .onDemand => 2) +
          256 * TimerCode (s.batch b).batchTimer + 65536 * TimerCode (s.batch b).leadTimer ∧
        ((s.batch b).leadTimer = .idle → ws.getD 10 0 = Word.ofCount ((s.batch b).batchTimer.left s.uptime)) ∧
        ((s.batch b).leadTimer ≠ .idle → ws.getD 10 0 = Word.ofCount ((s.batch b).leadTimer.left s.uptime)) ∧
        ws.getD 8 0 = Word.ofCount (((s.batch b).lots.map Lot.count).sum) ∧ ws.getD 9 0 = Word.ofCount (s.batch b).lots.length ∧
        ((s.batch b).outstanding = none → ws.getD 11 0 = 0xFFFFFFFF) ∧
        (∀ tag, (s.batch b).outstanding = some tag → ws.getD 11 0 = tag.toWord)) ∧
      ((s.item x).slot ≠ none → t.freeValues = s.freeValues) ∧
      t = { s.taken (.readItem r w) with exu := t.exu, freeValues := t.freeValues }) ∧
    (∀ n : StandId, w.toNat = n.val →
      exec (.readDemand r 0 w) s = .next ((s.taken (.readDemand r 0 w)).answerWith (.done
        [Word.ofCount (s.pace n).filter.fast, Word.ofCount (s.pace n).filter.slow,
          Word.ofSigned ((s.pace n).filter.fast - (s.pace n).filter.slow : Int), Word.ofCount (s.pace n).filter.count,
          Word.ofCount (s.pace n).level.code, Word.ofCount (s.pace n).opening.code, Word.ofCount (s.pace n).quiet,
          Word.ofCount (s.pace n).halt, (if (s.pace n).forced then 1 else 0), Word.ofCount s.dmw.period,
          Word.ofCount (s.dmw.sampleDue - s.uptime), Word.ofCount (s.dmw.pendingPeriod.getD 0)]))) ∧
    (∀ b : SlotId, w.toNat = b.val →
      exec (.readDemand r 1 w) s = .next ((s.taken (.readDemand r 1 w)).answerWith (.done
        [Word.ofCount (s.demand b).fast, Word.ofCount (s.demand b).slow,
          Word.ofSigned ((s.demand b).fast - (s.demand b).slow : Int), Word.ofCount (s.demand b).count, 0, 0, 0, 0, 0,
          Word.ofCount s.dmw.period, Word.ofCount (s.dmw.sampleDue - s.uptime), Word.ofCount (s.dmw.pendingPeriod.getD 0)]))))

/-- R29, R27, in a state that keeps the lists and the money in order: EXPORT_CLOSED writes the records of the closed list that fit,
oldest first, as EXPORTED, and moves those checks from the closed list to the tail of the exported list. The model's choices: a
buffer of length 0 overlaps no slip (log entry 47), and a record holds 0 where a payer, delta, delay or group is absent (log
entries 64 and 67). The byte of the completeness mark is an inference (log entry 74). -/
def Obligations.ExportClosedMovesTheOldestChecks : Prop :=
  ∀ (s : State) (r : Requester) (o n : Word) (recs : List (Handle × Check)) (rest : List Handle), HoldingOk s → MoneyOk s →
    BufferOffset s o n → s.cks.closedList = recs.map Prod.fst ++ rest → (∀ e ∈ recs, s.check e.1 = some e.2) →
    (recs.map (fun e => checkRecordLength e.2)).sum ≤ n.toNat →
    (∀ h more, rest = h :: more → ∃ c, s.check h = some c ∧
      n.toNat < (recs.map (fun e => checkRecordLength e.2)).sum + checkRecordLength c) →
    (recs ≠ [] ∨ rest = [] →
      ∃ t, exec (.exportClosed r o n) s = .next t ∧ DoneWith [Word.ofCount recs.length, Word.ofCount rest.length] s t ∧
        t.cks.closedList = rest ∧ t.cks.exportedList = s.cks.exportedList ++ recs.map Prod.fst ∧
        (∀ e ∈ recs, t.check e.1 = some { e.2 with state := .exported }) ∧
        (∀ h, h ∉ recs.map Prod.fst → t.check h = s.check h) ∧ t.cks.tills = s.cks.tills ∧ t.cks.stands = s.cks.stands ∧
        BytesThere t o.toNat (recs.flatMap (fun e => checkRecord e.1 { e.2 with state := .exported })) ∧
        BytesKeptBut s t o.toNat (recs.map (fun e => checkRecordLength e.2)).sum ∧
        t = { s.taken (.exportClosed r o n) with exu := t.exu, mem := t.mem, cks := t.cks }) ∧
    (recs = [] → rest ≠ [] →
      ∃ t, exec (.exportClosed r o n) s = .next t ∧ RefusedWith (.exportClosed r o n) .noRoom none s t)

/-! ### Stands, tills and the day (R3 to R6, R28, R30) -/

/-- R3 to R6: SET_STAND, SET_TILL, STAND_STATE and CUT_OFF, with SUPERVISOR and operands in their ranges, write their stand or till
and nothing else; a changed route table or stand state is handed to ISU's gates; below SUPERVISOR each is refused AUTHORITY. The
order of SET_TILL's operands and its codes are an inference of the model (log entry 14). -/
def Obligations.StandsAndTillsAreConfigured : Prop :=
  ∀ (s : State) (r : Requester) (nw : Word) (n : StandId), nw.toNat = n.val →
    (r.authority = .staff → ∀ (a b d e f g i j k : Word) (cmd : Instr),
      cmd ∈ [.setStand r a b d e f g i j k nw, .setTill r a nw b, .standState r nw a, .cutOff r nw, .closeDay r] →
      ∃ t, exec cmd s = .next t ∧ RefusedWith cmd .authority none s t) ∧
    (r.authority = .supervisor →
      (∀ (policy : FirePolicy) (pw r0 r1 r2 r3 levy inc lo hi : Word) (routes : List (Option StationId)) (cmd : Instr),
        cmd = .setStand r nw pw r0 r1 r2 r3 levy inc lo hi →
        ((pw = 0 ∧ policy = .onEntry) ∨ (pw = 1 ∧ policy = .onSettle)) →
        r0.toNat ≤ 2500 → r1.toNat ≤ 2500 → r2.toNat ≤ 2500 → r3.toNat ≤ 2500 → levy.toNat ≤ 2000 →
        (inc = 1 ∨ inc = 5 ∨ inc = 10 ∨ inc = 25) → routesOf lo hi = some routes →
        (policy = (s.stand n).policy ∨ (∀ e ∈ s.checks, e.2.stand = n → e.2.state = .exported)) →
        ∃ t, exec cmd s = .next t ∧ DoneWith [] s t ∧
          t.stand n = { s.stand n with
            configured := true, policy := policy, rates := [r0.toNat, r1.toNat, r2.toNat, r3.toNat], levy := levy.toNat,
            increment := inc.toNat, routes := routes } ∧
          (∀ m, m ≠ n → t.stand m = s.stand m) ∧
          t = { s.taken cmd with
            exu := t.exu, cks := { s.cks with stands := t.cks.stands }
            handovers := (s.taken cmd).handovers ++ if routes = (s.stand n).routes then [] else [.gateTest] }) ∧
      ((s.stand n).configured = true →
        (∀ (tw cw : Word) (isOpen : Bool), 1 ≤ tw.toNat → tw.toNat ≤ 96 → ((cw = 0 ∧ isOpen = true) ∨ (cw = 1 ∧ isOpen = false)) →
          ((s.till tw.toNat).held = [] ∨ (isOpen = true ∧ (s.till tw.toNat).stand = some n) →
            ∃ t, exec (.setTill r tw nw cw) s = .next t ∧ DoneWith [] s t ∧
              t.till tw.toNat = { s.till tw.toNat with stand := some n, isOpen := isOpen } ∧ OtherTillsKept s t tw.toNat ∧
              t = { s.taken (.setTill r tw nw cw) with exu := t.exu, cks := { s.cks with tills := t.cks.tills } }) ∧
          ((s.till tw.toNat).held ≠ [] → (isOpen = false ∨ (s.till tw.toNat).stand ≠ some n) →
            ∃ t, exec (.setTill r tw nw cw) s = .next t ∧ RefusedWith (.setTill r tw nw cw) .tillBusy none s t)) ∧
        (∀ (tw : Word) (target : StandState),
          ((tw = 0 ∧ target = .opened) ∨ (tw = 1 ∧ target = .lastOrders) ∨ (tw = 2 ∧ target = .closed)) →
          (target = .closed ∧ (∃ e ∈ s.checks, e.2.stand = n ∧ (e.2.state = .opened ∨ e.2.state = .paying)) →
            ∃ t, exec (.standState r nw tw) s = .next t ∧ RefusedWith (.standState r nw tw) .openChecks none s t) ∧
          ((target ≠ .closed ∨ ∀ e ∈ s.checks, e.2.stand = n → e.2.state ≠ .opened ∧ e.2.state ≠ .paying) →
            ∃ t, exec (.standState r nw tw) s = .next t ∧ DoneWith [] s t ∧ t.stand n = { s.stand n with state := target } ∧
              (∀ m, m ≠ n → t.stand m = s.stand m) ∧
              t = { s.taken (.standState r nw tw) with
                exu := t.exu, cks := { s.cks with stands := t.cks.stands }
                handovers := (s.taken (.standState r nw tw)).handovers ++
                  if target = (s.stand n).state then [] else [.gateTest] })) ∧
        (∃ t, exec (.cutOff r nw) s = .next t ∧ DoneWith [] s t ∧ t.stand n = { s.stand n with cutOff := true } ∧
          (∀ m, m ≠ n → t.stand m = s.stand m) ∧
          t = { s.taken (.cutOff r nw) with exu := t.exu, cks := { s.cks with stands := t.cks.stands } })))

/-- R30, R31, R180, in a state that keeps the lists in order: CLOSE_DAY with no check OPEN, PAYING or CLOSED frees every exported
check, so that the table holds none, starts every stand's day, returns the day clock to 0 and hands over the three day-close
actions; otherwise it is refused OPEN_CHECKS or NOT_EXPORTED. R30 gives the three hand-overs no order: ISU, TKR, DMW is the model's
(log entry 46), and so is the order of the freed checks, the oldest exported first (log entry 59). That the expiry times of lots
and the due times of delayed lines, day-clock values, go back with the clock, so that the return leaves the time left to each
(R180), is an inference of the model (log entry 63). -/
def Obligations.CloseDayFreesTheExportedChecks : Prop :=
  ∀ (s : State) (r : Requester), HoldingOk s → r.authority = .supervisor →
    ((∀ e ∈ s.checks, e.2.state ≠ .opened ∧ e.2.state ≠ .paying) →
      (s.cks.closedList = [] →
        ∃ t, exec (.closeDay r) s = .next t ∧
          t.exu = { s.exu with dayClock := 0, answer := some (.done [Word.ofCount s.cks.exportedList.length]) } ∧
          (∀ h ∈ s.cks.exportedList, t.check h = none ∧ t.checkSlot h.slot = { gen := h.gen + 1, check := none }) ∧
          (∀ k, (∀ h ∈ s.cks.exportedList, h.slot ≠ k) → t.checkSlot k = s.checkSlot k) ∧
          (EndedListed s → ∀ h, t.check h = none) ∧
          t.cks.exportedList = [] ∧ t.cks.closedList = [] ∧ t.cks.tills = s.cks.tills ∧
          (∀ n, t.stand n = { s.stand n with
            cutOff := false, nextDisplay := 1, state := if (s.stand n).configured then .opened else .closed }) ∧
          (∀ b, t.batch b = { s.batch b with
            lots := (s.batch b).lots.map (fun l => { l with expiry := l.expiry - s.exu.dayClock }) }) ∧
          t = { s.taken (.closeDay r) with
            exu := t.exu, cks := t.cks, isu := { s.isu with batches := t.isu.batches }
            tkr := { s.tkr with delays := s.tkr.delays.map (fun d => { d with due := d.due - s.exu.dayClock }) }
            handovers := (s.taken (.closeDay r)).handovers ++ s.cks.exportedList.map .slotFreed ++
              [.isuDayClose, .tkrDayClose, .dmwDayClose] }) ∧
      (s.cks.closedList ≠ [] → ∃ t, exec (.closeDay r) s = .next t ∧ RefusedWith (.closeDay r) .notExported none s t)) ∧
    ((∃ e ∈ s.checks, e.2.state = .opened ∨ e.2.state = .paying) →
      ∃ t, exec (.closeDay r) s = .next t ∧ RefusedWith (.closeDay r) .openChecks none s t)

/-- R28, R72, R112: REOPEN of a CLOSED check, with SUPERVISOR, from an open till of its stand, makes it OPEN, or PAYING with a live
tender, in the till's hands; each live line's stock is uncommitted, and a line whose item is no longer tracked loses its mark; no
notice is raised. What CKS has handed to ISU before is carried out there before the first ask (R1; asked within the step, log entry
5). That every uncommit fits is a premise, so the order of the lines' asks (log entry 66) is not seen. -/
def Obligations.ReopenTakesBackAClosedCheck : Prop :=
  ∀ (s : State) (r : Requester) (w : Word) (h : Handle) (c : Check) (n : Nat), r.authority = .supervisor → r.till.toNat = n →
    OpenTill s n c.stand → handleOf w = some h → s.check h = some c →
    (c.state = .exported → ∃ t, exec (.reopen r w) s = .next t ∧ RefusedWith (.reopen r w) .exported none s t) ∧
    (c.state = .closed → (s.stand c.stand).state ≠ .closed → (s.till n).held.length < 8 →
      (∀ x, (s.item x).tracked = true → (s.item x).onHand + c.stockOf x ≤ 65535) →
      ∃ t u, exec (.reopen r w) s = .next t ∧ DoneWith [] s t ∧
        AskedOfIsu (∃ l ∈ c.lines, l.void = false ∧ l.stockMark = true) (s.taken (.reopen r w)) u ∧
        t.check h = some { c with
          state := if c.tenders.any (fun x => !x.reversed) then .paying else .opened
          holder := some n, closeTime := none, orderReady := false
          lines := c.lines.map (fun l =>
            if !l.void && l.stockMark && !(s.item l.item).tracked then { l with stockMark := false } else l) } ∧
        OtherChecksKept s t h ∧ t.till n = { s.till n with held := (s.till n).held ++ [h] } ∧ OtherTillsKept s t n ∧
        t.cks.closedList = s.cks.closedList.erase h ∧ t.cks.exportedList = s.cks.exportedList ∧ t.cks.stands = s.cks.stands ∧
        (∀ x, t.item x =
          if (s.item x).tracked then
            { s.item x with onHand := (s.item x).onHand + c.stockOf x, reserved := (s.item x).reserved + c.stockOf x }
          else s.item x) ∧
        t = { u with exu := t.exu, cks := t.cks, isu := { u.isu with items := t.isu.items } })

/-! ### Tenders and closing (R44 to R62) -/

/-- R54, R55: a CARD tender applies the amount offered in full and is refused above the payer's remaining; a VOUCHER applies the
smaller of the amount and the remaining and forfeits the rest; neither gives change or is rounded. -/
def Obligations.CardAndVoucherTenders : Prop :=
  ∀ (s : State) (r : Requester) (w pw aw ref : Word) (h : Handle) (c : Check) (row : PayerRow), HeldBy s r w h c →
    c.due.complete = true → pw.toNat ≤ 7 → c.due.rows[pw.toNat]? = some row → c.tenders.length < 16 → row.remaining ≠ 0 →
    1 ≤ aw.toNat → aw.toNat ≤ 99999999 →
    (row.remaining < aw.toNat →
      ∃ t, exec (.tender r w pw 1 aw ref) s = .next t ∧ RefusedWith (.tender r w pw 1 aw ref) .overTender none s t) ∧
    (aw.toNat ≤ row.remaining →
      ∃ t, exec (.tender r w pw 1 aw ref) s = .next t ∧
        TenderTaken s t h c pw.toNat row .card aw.toNat ref { applied := aw.toNat, change := 0, adjustment := 0, forfeit := 0 }
          (.tender r w pw 1 aw ref)) ∧
    (∃ t, exec (.tender r w pw 2 aw ref) s = .next t ∧
      TenderTaken s t h c pw.toNat row .voucher aw.toNat ref
        { applied := min aw.toNat row.remaining, change := 0, adjustment := 0,
          forfeit := aw.toNat - min aw.toNat row.remaining } (.tender r w pw 2 aw ref))

/-- R45, R46, R53: a CASH tender of at least the smaller of the remaining R and its rounded value Rc completes the payer, with the
change and the adjustment the rule gives, and a smaller one is applied as offered; Rc rounds R to the check's increment, exact
halves up, and the adjustment stays within its bounds. -/
def Obligations.CashTendersRoundToTheIncrement : Prop :=
  ∀ (s : State) (r : Requester) (w pw aw ref : Word) (h : Handle) (c : Check) (row : PayerRow) (rc : Nat), HeldBy s r w h c →
    c.due.complete = true → pw.toNat ≤ 7 → c.due.rows[pw.toNat]? = some row → c.tenders.length < 16 → row.remaining ≠ 0 →
    1 ≤ aw.toNat → aw.toNat ≤ 99999999 → 1 ≤ c.increment →
    (2 * (row.remaining % c.increment) < c.increment → rc = row.remaining - row.remaining % c.increment) →
    (c.increment ≤ 2 * (row.remaining % c.increment) → rc = row.remaining - row.remaining % c.increment + c.increment) →
    (min row.remaining rc ≤ aw.toNat →
      ∃ t adj, exec (.tender r w pw 0 aw ref) s = .next t ∧ adj = (aw.toNat : Int) - (aw.toNat - rc : Nat) - row.remaining ∧
        -(((c.increment - 1) / 2 : Nat) : Int) ≤ adj ∧ adj ≤ ((c.increment / 2 : Nat) : Int) ∧
        TenderTaken s t h c pw.toNat row .cash aw.toNat ref
          { applied := row.remaining, change := aw.toNat - rc, adjustment := adj, forfeit := 0 } (.tender r w pw 0 aw ref)) ∧
    (aw.toNat < min row.remaining rc →
      ∃ t, exec (.tender r w pw 0 aw ref) s = .next t ∧
        TenderTaken s t h c pw.toNat row .cash aw.toNat ref { applied := aw.toNat, change := 0, adjustment := 0, forfeit := 0 }
          (.tender r w pw 0 aw ref))

/-- R59 to R62: SETTLE closes a check whose every payer is PAID: its holding ends, it joins the closed list with its close time,
the stock of its live marked lines is committed, with no notice where it is counted in reserved and reserved is at most on-hand
(R70, R72), in an ON_SETTLE stand its waiting lines are handed over, and the router is told. It is refused UNASSIGNED over an
INCOMPLETE table and NOT_PAID while a payer owes. What CKS has handed to ISU before is carried out there before the first commit
(R1; asked within the step, log entry 5). -/
def Obligations.SettleClosesAPaidCheck : Prop :=
  ∀ (s : State) (r : Requester) (w : Word) (h : Handle) (c : Check), HeldBy s r w h c →
    (c.due.complete = false → ∃ t, exec (.settle r w) s = .next t ∧ RefusedWith (.settle r w) .unassigned none s t) ∧
    (c.due.complete = true → (∃ row ∈ c.due.rows, row.paid = false) →
      ∃ t, exec (.settle r w) s = .next t ∧ RefusedWith (.settle r w) .notPaid none s t) ∧
    (c.due.complete = true → (∀ row ∈ c.due.rows, row.paid = true) →
      ∃ t u stock, exec (.settle r w) s = .next t ∧ DoneWith [s.exu.dayClock] s t ∧
        AskedOfIsu (∃ l ∈ c.lines, l.void = false ∧ l.stockMark = true) (s.taken (.settle r w)) u ∧
        t.check h = some { c with state := .closed, holder := none, closeTime := some s.exu.dayClock } ∧ OtherChecksKept s t h ∧
        (t.till r.till.toNat).held = (s.till r.till.toNat).held.erase h ∧ OtherTillsKept s t r.till.toNat ∧
        t.cks.closedList = s.cks.closedList ++ [h] ∧ t.cks.exportedList = s.cks.exportedList ∧
        (∀ x, t.item x = { s.item x with
          onHand := (s.item x).onHand - c.stockOf x, reserved := (s.item x).reserved - c.stockOf x }) ∧
        (∀ e ∈ stock, ∃ n, e = Instr.noticeRaise n) ∧ ((∀ x, c.stockOf x = 0 ∨ (c.stockOf x ≤ (s.item x).reserved ∧ (s.item x).reserved ≤ (s.item x).onHand)) → stock = []) ∧
        t = { u with
          exu := t.exu, cks := t.cks, isu := { u.isu with items := t.isu.items }
          handovers := u.handovers ++ stock ++
            (if (s.stand c.stand).policy = .onSettle then
              (let now := (c.lines.zipIdx.filter (fun e => !e.1.void && decide (e.1.fire = .held) &&
                  decide (e.1.mode = .immediate))).map Prod.snd
               if now = [] then [] else [.firing h now .close]) ++
              c.lines.zipIdx.filterMap (fun e =>
                match e.1.mode with
                | .delayed d =>
                  if e.1.void = false ∧ e.1.fire = .held then
                    some (.delayListJoin { check := h, line := e.2 } (s.exu.dayClock + BitVec.ofNat 32 (d * 1000)))
                  else none
                | _ => none)
             else []) ++ [.checkCloseTold h] })

/-- R57, R58: VOID_TENDER reverses a live tender: its record keeps its figures, its payer's applied falls and remaining rises by
the applied amount and the payer is OWING, and the check is OPEN once no live tender is left; a tender already reversed is refused
TENDER_VOID. -/
def Obligations.VoidTenderReversesATender : Prop :=
  ∀ (s : State) (r : Requester) (w iw : Word) (h : Handle) (c : Check) (x : Tender) (row : PayerRow), HeldBy s r w h c →
    iw.toNat ≤ 15 → c.tenders[iw.toNat]? = some x → c.due.rows[x.payer]? = some row →
    (x.reversed = true → ∃ t, exec (.voidTender r w iw) s = .next t ∧ RefusedWith (.voidTender r w iw) .tenderVoid none s t) ∧
    (x.reversed = false →
      ∃ t, exec (.voidTender r w iw) s = .next t ∧
        (let live := (c.tenders.eraseIdx iw.toNat).any (fun y => !y.reversed)
         t.check h = some { c with
           tenders := c.tenders.set iw.toNat { x with reversed := true }
           state := if live then .paying else .opened
           due := { c.due with
             rows := c.due.rows.set x.payer { row with
               applied := row.applied - x.applied, remaining := row.remaining + x.applied, paid := false } } } ∧
         DoneWith [Word.ofCount (row.remaining + x.applied), if live then 1 else 0] s t) ∧
        OtherChecksKept s t h ∧
        t = { s.taken (.voidTender r w iw) with exu := t.exu, cks := { s.cks with slots := t.cks.slots } })

/-- R102: FIRE hands the live HELD ON_CALL lines of a group over as one firing and gives their number; on an OPEN or PAYING check
it needs the holder and is refused NOT_SETTLED in an ON_SETTLE stand, on a CLOSED check it is taken from a till of the stand or the
back office and refused WRONG_STAND from another, and on an EXPORTED one it is refused CHECK_CLOSED. That a till number above 96
and a till with no stand are refused WRONG_STAND too is an inference of the model (log entry 36). The lines stay HELD until the
router takes the firing (R23), so that a FIRE of the group taken before then counts them and hands them over again: an inference of
the model (log entry 70). -/
def Obligations.FireHandsOverAGroup : Prop :=
  ∀ (s : State) (r : Requester) (w gw : Word) (h : Handle) (c : Check), handleOf w = some h → s.check h = some c →
    1 ≤ gw.toNat → gw.toNat ≤ 3 →
    (let ls := (c.lines.zipIdx.filter (fun e => !e.1.void && decide (e.1.mode = .onCall gw.toNat) &&
        decide (e.1.fire = .held))).map Prod.snd
     ((c.ended = false ∧ c.holder = some r.till.toNat ∧ (s.stand c.stand).policy = .onEntry) ∨
       (c.state = .closed ∧ (r.till = 0 ∨ (1 ≤ r.till.toNat ∧ r.till.toNat ≤ 96 ∧ (s.till r.till.toNat).stand = some c.stand))) →
      exec (.fire r w gw) s = .next { s.taken (.fire r w gw) with
        exu := { s.exu with answer := some (.done [Word.ofCount ls.length]) }
        handovers := (s.taken (.fire r w gw)).handovers ++ if ls = [] then [] else [.firing h ls .fire] }) ∧
     (c.ended = false → c.holder = some r.till.toNat → (s.stand c.stand).policy = .onSettle →
      ∃ t, exec (.fire r w gw) s = .next t ∧ RefusedWith (.fire r w gw) .notSettled none s t) ∧
     (c.state = .closed → r.till ≠ 0 →
        (r.till.toNat ≤ 96 → (s.till r.till.toNat).stand ≠ some c.stand) →
        ∃ t, exec (.fire r w gw) s = .next t ∧ RefusedWith (.fire r w gw) .wrongStand none s t) ∧
     (c.state = .exported → ∃ t, exec (.fire r w gw) s = .next t ∧ RefusedWith (.fire r w gw) .checkClosed none s t))

/-- R38: an allocation divides its amount exactly, each payer's share its whole part or one more, and nothing to a payer of weight
0. R37, R40 to R43, R34: the rows of a COMPLETE due table add up to the check's figures, to the last unit, for every plan; an
INCOMPLETE table has rows of 0. -/
def Obligations.DuesAddUpToTheTotal : Prop :=
  (∀ (a : Nat) (ws : List Nat) (cur : Nat), 0 < ws.sum →
    (allocate a ws cur).shares.sum = a ∧ (allocate a ws cur).shares.length = ws.length ∧
    ∀ p wt sh : Nat, ws[p]? = some wt → (allocate a ws cur).shares[p]? = some sh →
      (sh = a * wt / ws.sum ∨ sh = a * wt / ws.sum + 1) ∧ (wt = 0 → sh = 0)) ∧
  (∀ (lines : List Line) (plan rates : List Nat) (levy : Nat) (d : DueTable), d = dueTable lines plan rates levy → plan ≠ [] →
    (∀ wt ∈ plan, 1 ≤ wt) →
    (∀ l ∈ lines, l.void = false → ∀ set, l.share = .payers set → ∃ p, p < plan.length ∧ set.getLsbD p = true) →
    d.rows.length = plan.length ∧
    ((∃ l ∈ lines, l.void = false ∧ l.share = .unassigned) → d.complete = false ∧ ∀ row ∈ d.rows, row.due = 0) ∧
    ((∀ l ∈ lines, l.void = false → l.share ≠ .unassigned) →
      d.complete = true ∧ (d.rows.map PayerRow.due).sum = d.total ∧ (d.rows.map PayerRow.net).sum = d.net ∧
      (d.rows.map PayerRow.levy).sum = d.levy ∧
      (∀ k, k < 4 → (d.rows.map (fun row => row.taxes.getD k 0)).sum = d.classTaxes.getD k 0) ∧
      (∀ row ∈ d.rows, row.applied = 0 ∧ row.remaining = row.due ∧ row.paid = decide (row.due = 0)) ∧
      d.net = ((lines.filter (fun l => !l.void)).map Line.amount).sum))

/-! ### Items, stock and warmers (R66 to R92) -/

/-- R67, R68, R164, in a state whose pairings are in order: SET_ITEM writes the fields it names and keeps the counts; a change of
the item's batch slot breaks the pairings in its way, joins the item and the slot, and is handed to Demand Watch for each slot
concerned. A slot that is busy, or would lose its pairing while its mode is not OFF, makes it ITEM_BUSY, as does turning tracking
off, or clearing defined, with units reserved. The model's choice (log entry 48): a request that leaves an undefined item undefined
clears nothing, and is done with units reserved. -/
def Obligations.SetItemWritesAndPairs : Prop :=
  ∀ (s : State) (r : Requester) (iw dw pw tw kw ew gw lw sw : Word) (x : ItemId) (isDefined restricted tracked : Bool)
    (tc : Fin 4) (pr : Fin 8) (slot : Option SlotId) (cmd : Instr), StockOk s →
    cmd = .setItem r iw dw pw tw kw ew gw lw sw → r.authority = .supervisor → iw.toNat = x.val →
    dw = (if isDefined then 1 else 0) → pw.toNat ≤ 99999 → tw.toNat = tc.val → kw.toNat = pr.val →
    ew = (if restricted then 1 else 0) → gw = (if tracked then 1 else 0) → lw.toNat ≤ 65535 →
    ((slot = none ∧ sw = 0xFFFFFFFF) ∨ ∃ b, slot = some b ∧ sw.toNat = b.val) →
    (tracked = true ∧ slot.isSome = true → ∃ t, exec cmd s = .next t ∧ RefusedWith cmd .range none s t) ∧
    (tracked = false ∨ slot = none →
      (0 < (s.item x).reserved ∧ (((s.item x).tracked = true ∧ tracked = false) ∨
          ((s.item x).isDefined = true ∧ isDefined = false)) →
        ∃ t, exec cmd s = .next t ∧ RefusedWith cmd .itemBusy none s t) ∧
      ((s.item x).reserved = 0 ∨ (((s.item x).tracked = false ∨ tracked = true) ∧
          ((s.item x).isDefined = false ∨ isDefined = true)) →
        (slot ≠ (s.item x).slot →
          (∃ b, ((s.item x).slot = some b ∨ slot = some b) ∧
            ((s.batch b).lots ≠ [] ∨ (s.batch b).outstanding ≠ none ∨ ((s.batch b).item ≠ none ∧ (s.batch b).mode ≠ .off))) →
          ∃ t, exec cmd s = .next t ∧ RefusedWith cmd .itemBusy none s t) ∧
        (slot = (s.item x).slot ∨
          (∀ b, (s.item x).slot = some b ∨ slot = some b →
            (s.batch b).lots = [] ∧ (s.batch b).outstanding = none ∧ ((s.batch b).item = none ∨ (s.batch b).mode = .off)) →
          ∃ t, exec cmd s = .next t ∧ DoneWith [] s t ∧
            t.item x = { isDefined := isDefined, price := pw.toNat, taxClass := tc, prepRoute := pr, restricted := restricted,
                         tracked := tracked, onHand := (s.item x).onHand, reserved := (s.item x).reserved,
                         lowMark := lw.toNat, slot := slot } ∧
            (∀ y, y ≠ x → t.item y =
              if (s.item y).slot ≠ none ∧ (s.item y).slot = slot then { s.item y with slot := none } else s.item y) ∧
            (∀ b, (t.batch b).item =
              if slot = some b then some x else if (s.item x).slot = some b then none else (s.batch b).item) ∧
            (∀ b, (t.batch b).lots = (s.batch b).lots ∧ (t.batch b).mode = (s.batch b).mode ∧
              (t.batch b).outstanding = (s.batch b).outstanding) ∧
            (pr = (s.item x).prepRoute → ∀ b, (t.batch b).batchTimer = (s.batch b).batchTimer ∧
              (t.batch b).leadTimer = (s.batch b).leadTimer) ∧
            t = { s.taken cmd with
              exu := t.exu, isu := t.isu
              handovers := (s.taken cmd).handovers ++
                (if slot = (s.item x).slot then [] else ((s.item x).slot.toList ++ slot.toList).map .pairingChange) })))

/-- R76, R77, R68, R84, R89, in a state whose pairings are in order: SET_BATCH with operands in their ranges writes a slot's
configuration and its pairing and keeps its lots and its outstanding ticket; a slot that becomes PACED starts a full cycle, one
that stays PACED keeps its cycle and takes the new interval as pending, one set OFF has both timers IDLE, and one set ON_DEMAND
keeps its lead timer, or starts an IDLE one below the low mark, and with a lead delay of 0 behind an open gate makes the batch in
the same event (R88; the router is asked inside the step, log entry 5, and the demand figure read before Demand Watch takes the
change of pairing, log entry 65). A capacity below the ready count is ITEM_BUSY. -/
def Obligations.SetBatchConfiguresASlotAndItsTimers : Prop :=
  ∀ (s : State) (r : Requester) (bw xw mw hw iw zw cw lw kw dw : Word) (b : SlotId) (item : Option ItemId) (mode : BatchMode)
    (home : StandId) (ready : Nat) (cmd : Instr), StockOk s →
    cmd = .setBatch r bw xw mw hw iw zw cw lw kw dw → r.authority = .supervisor →
    ready = ((s.batch b).lots.map Lot.count).sum → bw.toNat = b.val →
    ((item = none ∧ xw = 0xFFFFFFFF ∧ mode = .off) ∨
      ∃ x, item = some x ∧ xw.toNat = x.val ∧ (s.item x).isDefined = true ∧ (s.item x).tracked = false) →
    mw = BitVec.ofNat 32 mode.code → hw.toNat = home.val → (s.stand home).configured = true →
    60 ≤ iw.toNat → iw.toNat ≤ 3600 → 1 ≤ zw.toNat → zw.toNat ≤ 99 → 1 ≤ cw.toNat → cw.toNat ≤ 999 → 60 ≤ lw.toNat →
    lw.toNat ≤ 3600 → kw.toNat ≤ 999 → dw.toNat ≤ 600 →
    (item ≠ (s.batch b).item → ((s.batch b).lots = [] ∧ (s.batch b).outstanding = none) ∧
      ∀ x a, item = some x → (s.item x).slot = some a →
        (s.batch a).lots = [] ∧ (s.batch a).outstanding = none ∧ (s.batch a).mode = .off) →
    (cw.toNat < ready → ∃ t, exec cmd s = .next t ∧ RefusedWith cmd .itemBusy none s t) ∧
    (ready ≤ cw.toNat →
      ∃ x,
        (∀ a, a ≠ b → x.batch a =
          if (s.batch a).item ≠ none ∧ (s.batch a).item = item then { s.batch a with item := none } else s.batch a) ∧
        (∀ y, x.item y =
          if item = some y then { s.item y with slot := some b }
          else if (s.item y).slot = some b then { s.item y with slot := none } else s.item y) ∧
        x = { s.taken cmd with
          isu := { s.isu with items := x.isu.items, batches := x.isu.batches }
          handovers := (s.taken cmd).handovers ++
            (if item = (s.batch b).item then []
             else ((item.bind (fun x => (s.item x).slot)).toList ++ [b]).map .pairingChange) } ∧
        (let e := EffectiveInterval iw.toNat (s.factor home)
         let n := x.batch b
         let starts := mode = .onDemand ∧ (s.batch b).leadTimer = .idle ∧ ready < kw.toNat ∧ (s.batch b).outstanding = none
         let atOnce := dw.toNat = 0 ∧ GateIsOpen x b
         (starts ∧ atOnce → exec cmd s = .next ((makeBatch b e x).1.answerWith (.done []))) ∧
         (¬ (starts ∧ atOnce) → exec cmd s = .next (x.answerWith (.done []))) ∧
         n = { s.batch b with
           item := item, mode := mode, home := home, interval := iw.toNat, baseSize := zw.toNat, capacity := cw.toNat,
           life := lw.toNat, lowMark := kw.toNat, leadDelay := dw.toNat, batchTimer := n.batchTimer, cycle := n.cycle,
           pendingInterval := n.pendingInterval, leadTimer := n.leadTimer } ∧
         (mode = .paced → (s.batch b).mode ≠ .paced →
           n.cycle = e ∧ n.pendingInterval = none ∧ n.leadTimer = .idle ∧ LoadedWith x b n.batchTimer (e * 1000)) ∧
         (mode = .paced → (s.batch b).mode = .paced →
           n.cycle = (s.batch b).cycle ∧ n.leadTimer = .idle ∧
           n.pendingInterval = (if e = (s.batch b).cycle then none else some e) ∧
           ((s.batch b).batchTimer = .idle → n.batchTimer = .idle) ∧
           (∀ left, (s.batch b).batchTimer = .held left → LoadedWith x b n.batchTimer left) ∧
           (∀ due, (s.batch b).batchTimer = .running due → s.uptime ≤ due →
             LoadedWith x b n.batchTimer (due - s.uptime))) ∧
         (mode = .off → n.batchTimer = .idle ∧ n.leadTimer = .idle ∧ n.pendingInterval = none) ∧
         (mode = .onDemand → n.batchTimer = .idle ∧ n.pendingInterval = none ∧
           ((s.batch b).leadTimer = .idle → (¬ starts ∨ atOnce) → n.leadTimer = .idle) ∧
           (starts → ¬ atOnce → LoadedWith x b n.leadTimer (dw.toNat * 1000)) ∧
           (∀ left, (s.batch b).leadTimer = .held left → LoadedWith x b n.leadTimer left) ∧
           (∀ due, (s.batch b).leadTimer = .running due → s.uptime ≤ due → LoadedWith x b n.leadTimer (due - s.uptime)))))

/-- R73, R74, R71, in a state whose counts are in order: RECEIVE_STOCK adds to a tracked item's on-hand up to 65,535 and reports
the excess; COUNT_STOCK sets it to the count, or to reserved with a STOCK_SHORT where the count is below; each raises the notices
of R71, and is refused NO_ITEM or RANGE for an item undefined or not tracked. -/
def Obligations.ReceiveAndCountStock : Prop :=
  ∀ (s : State) (r : Requester) (iw qw : Word) (x : ItemId), StockOk s → iw.toNat = x.val → qw.toNat ≤ 65535 →
    ((s.item x).isDefined = false → 1 ≤ qw.toNat →
      (∃ t, exec (.receiveStock r iw qw) s = .next t ∧ RefusedWith (.receiveStock r iw qw) .noItem none s t) ∧
      (∃ t, exec (.countStock r iw qw) s = .next t ∧ RefusedWith (.countStock r iw qw) .noItem none s t)) ∧
    ((s.item x).isDefined = true → (s.item x).tracked = false → 1 ≤ qw.toNat →
      (∃ t, exec (.receiveStock r iw qw) s = .next t ∧ RefusedWith (.receiveStock r iw qw) .range none s t) ∧
      (∃ t, exec (.countStock r iw qw) s = .next t ∧ RefusedWith (.countStock r iw qw) .range none s t)) ∧
    ((s.item x).isDefined = true → (s.item x).tracked = true →
      (1 ≤ qw.toNat → ∃ t, exec (.receiveStock r iw qw) s = .next t ∧
        (let n := min 65535 ((s.item x).onHand + qw.toNat)
         DoneWith [Word.ofCount n, Word.ofCount (n - (s.item x).reserved), Word.ofCount ((s.item x).onHand + qw.toNat - n)] s t ∧
         StockBecame x { s.item x with onHand := n } ((s.taken (.receiveStock r iw qw)).handovers) s t) ∧
        t = { s with exu := t.exu, isu := t.isu, handovers := t.handovers }) ∧
      (∃ t, exec (.countStock r iw qw) s = .next t ∧
        (let n := max qw.toNat (s.item x).reserved
         DoneWith [Word.ofCount n, Word.ofCount (n - (s.item x).reserved), Word.ofCount ((s.item x).reserved - qw.toNat)] s t ∧
         StockBecame x { s.item x with onHand := n }
           ((s.taken (.countStock r iw qw)).handovers ++
             if qw.toNat < (s.item x).reserved then
               [.noticeRaise { kind := .stockShort, subject := Word.ofCount x.val,
                               values := [Word.ofCount ((s.item x).reserved - qw.toNat)] }]
             else []) s t) ∧
        t = { s with exu := t.exu, isu := t.isu, handovers := t.handovers }))

/-- R72, R71, R13: the four stock asks: reserve raises reserved or is refused OUT_OF_STOCK, release lowers it, commit lowers both
counts and uncommit raises both; an uncommit that cannot raise them clears the line's stock mark, with STOCK_SHORT where on-hand
has no room. The model's choice (log entry 30): an ask that comes as a command of its own leaves its answer in a field of the
model. -/
def Obligations.StockAsksMoveTheCounts : Prop :=
  ∀ (s : State) (x : ItemId) (q : Nat) (i : Item), i = s.item x →
    (i.onHand - i.reserved < q →
      exec (.reserve x q) s = .next { s.taken (.reserve x q) with askAnswer := some .outOfStock }) ∧
    (q ≤ i.onHand - i.reserved →
      ∃ t, exec (.reserve x q) s = .next t ∧
        StockBecame x { i with reserved := i.reserved + q } ((s.taken (.reserve x q)).handovers) s t ∧
        t = { s with isu := t.isu, handovers := t.handovers, askAnswer := some .taken }) ∧
    (∃ t, exec (.release x q) s = .next t ∧
      StockBecame x { i with reserved := i.reserved - q } ((s.taken (.release x q)).handovers) s t ∧
      t = { s with isu := t.isu, handovers := t.handovers, askAnswer := some .taken }) ∧
    (q ≤ i.reserved → i.reserved ≤ i.onHand →
      ∃ t, exec (.commit x q) s = .next t ∧ t.handovers = (s.taken (.commit x q)).handovers ∧
        t.item x = { i with onHand := i.onHand - q, reserved := i.reserved - q } ∧ (∀ y, y ≠ x → t.item y = s.item y) ∧
        t = { s.taken (.commit x q) with isu := { s.isu with items := t.isu.items }, askAnswer := some .taken }) ∧
    (∀ ref, i.tracked = true → i.onHand + q ≤ 65535 →
      ∃ t, exec (.uncommit ref x q) s = .next t ∧
        t.item x = { i with onHand := i.onHand + q, reserved := i.reserved + q } ∧ (∀ y, y ≠ x → t.item y = s.item y) ∧
        t = { s.taken (.uncommit ref x q) with isu := { s.isu with items := t.isu.items }, askAnswer := some .taken }) ∧
    (∀ ref c l, s.check ref.check = some c → c.lines[ref.line]? = some l → (i.tracked = false ∨ 65535 < i.onHand + q) →
      ∃ t, exec (.uncommit ref x q) s = .next t ∧
        t.check ref.check = some { c with lines := c.lines.set ref.line { l with stockMark := false } } ∧
        OtherChecksKept s t ref.check ∧
        t = { s.taken (.uncommit ref x q) with
          cks := { s.cks with slots := t.cks.slots }, askAnswer := some .markCleared
          handovers := (s.taken (.uncommit ref x q)).handovers ++
            if i.tracked then [.noticeRaise { kind := .stockShort, subject := Word.ofCount x.val, values := [Word.ofCount q] }]
            else [] })

/-- R79, R80, R81, R82, R83: a draw is served whole from the oldest lots or refused; a batch bump's food makes a new lot, or merges
into the newest of 4, and clears the outstanding ticket; a void return tops up the newest lot; the lot that expires first is
removed; what finds no room, and what expires, is raised as WASTE. The model's choices (log entries 6 and 30): an expiry moves the
clock on to its due time, and a draw that comes as a command leaves its answer in a field of the model. Inferences of the model:
expiries are compared round the wrap of the day clock (log entry 7), and of the lots due the one that expires first is taken, the
oldest among equals (log entry 25). -/
def Obligations.WarmersAreDrawnFilledAndExpire : Prop :=
  ∀ (s : State) (b : SlotId) (x : ItemId) (q n : Nat), (s.batch b).item = some x → n = ((s.batch b).lots.map Lot.count).sum →
    (n < q → exec (.warmerDraw b q) s = .next { s.taken (.warmerDraw b q) with askAnswer := some .drawRefused }) ∧
    (q ≤ n → ((s.batch b).mode ≠ .onDemand ∨ (s.batch b).lowMark ≤ n - q ∨ n < (s.batch b).lowMark) →
      ∃ t gone kept, exec (.warmerDraw b q) s = .next t ∧ OtherSlotsKept s t b ∧
        t.batch b = { s.batch b with lots := (t.batch b).lots } ∧ (s.batch b).lots = gone ++ kept ∧
        (((gone.map Lot.count).sum = q ∧ (t.batch b).lots = kept) ∨
          ∃ l more, kept = l :: more ∧ (gone.map Lot.count).sum < q ∧ q < (gone.map Lot.count).sum + l.count ∧
            (t.batch b).lots = { l with count := l.count - (q - (gone.map Lot.count).sum) } :: more) ∧
        t = { s.taken (.warmerDraw b q) with isu := t.isu, askAnswer := some .drawServed }) ∧
    ((let added := min q ((s.batch b).capacity - n)
      let expiry := s.exu.dayClock + BitVec.ofNat 32 ((s.batch b).life * 1000)
      (s.batch b).mode ≠ .onDemand ∨ (s.batch b).lowMark ≤ n + added →
      ∃ t, exec (.batchBump b q) s = .next t ∧ OtherSlotsKept s t b ∧
        t.batch b = { s.batch b with lots := (t.batch b).lots, outstanding := none } ∧
        (added = 0 → (t.batch b).lots = (s.batch b).lots) ∧
        (added ≠ 0 → (s.batch b).lots.length < 4 →
          (t.batch b).lots = (s.batch b).lots ++ [{ count := added, expiry := expiry }]) ∧
        (∀ older newest, added ≠ 0 → (s.batch b).lots = older ++ [newest] → 3 ≤ older.length →
          (t.batch b).lots = older ++ [{ count := newest.count + added, expiry := expiry }]) ∧
        t = { s.taken (.batchBump b q) with
          isu := t.isu
          handovers := (s.taken (.batchBump b q)).handovers ++ if added < q then [WasteNotice x 1 (q - added)] else [] })) ∧
    ((let added := min q ((s.batch b).capacity - n)
      let expiry := s.exu.dayClock + BitVec.ofNat 32 ((s.batch b).life * 1000)
      ∃ t, exec (.voidReturn x (some b) q) s = .next t ∧ OtherSlotsKept s t b ∧
        t.batch b = { s.batch b with lots := (t.batch b).lots } ∧
        (added = 0 → (t.batch b).lots = (s.batch b).lots) ∧
        (added ≠ 0 → (s.batch b).lots = [] → (t.batch b).lots = [{ count := added, expiry := expiry }]) ∧
        (∀ older newest, (s.batch b).lots = older ++ [newest] →
          (t.batch b).lots = older ++ [{ newest with count := newest.count + added }]) ∧
        t = { s.taken (.voidReturn x (some b) q) with
          isu := t.isu
          handovers := (s.taken (.voidReturn x (some b) q)).handovers ++
            if added < q then [WasteNotice x 2 (q - added)] else [] })) ∧
    (exec (.voidReturn x none q) s = .next { s.taken (.voidReturn x none q) with
      handovers := (s.taken (.voidReturn x none q)).handovers ++ [WasteNotice x 2 q] }) ∧
    (∀ older l newer, (s.batch b).lots = older ++ l :: newer →
      (∀ m ∈ older, (l.expiry - s.exu.dayClock).toInt < (m.expiry - s.exu.dayClock).toInt) →
      (∀ m ∈ newer, (l.expiry - s.exu.dayClock).toInt ≤ (m.expiry - s.exu.dayClock).toInt) →
      ((s.batch b).mode ≠ .onDemand ∨ n < (s.batch b).lowMark ∨ (s.batch b).lowMark ≤ n - l.count) →
      ∃ (t : State) (ms : Nat), exec (.lotExpiry b) s = .next t ∧ (ms : Int) = max 0 (l.expiry - s.exu.dayClock).toInt ∧ OtherSlotsKept s t b ∧
        t.batch b = { s.batch b with lots := older ++ newer } ∧
        t = { s.taken (.lotExpiry b) with
          uptime := s.uptime + ms, exu := { s.exu with dayClock := s.exu.dayClock + BitVec.ofNat 32 ms }, isu := t.isu
          handovers := (s.taken (.lotExpiry b)).handovers ++ [WasteNotice x 0 l.count] })

/-- R83, R88: in ON_DEMAND mode a fall past the low mark, by a draw or the expiry of a lot, starts an IDLE lead timer where no
ticket is outstanding, and so do a batch bump and a cancellation, which clear the outstanding ticket, where the ready count is then
below the low mark. The timer is loaded with the lead delay; a delay of 0 behind an open gate makes the batch in the same event. A
timer that is not IDLE goes on as it was; in the other modes, and from the low mark up, a cancellation only clears the ticket. The
model's choices (log entries 5, 6, 7, 25 and 30): the router is asked inside the step, an expiry moves the clock on and takes the
lot that expires first, round the wrap, and a draw that comes as a command leaves its answer in a field of the model. -/
def Obligations.LowWarmersStartTheLeadTimer : Prop :=
  ∀ (s : State) (b : SlotId) (q n : Nat), n = ((s.batch b).lots.map Lot.count).sum →
    ((s.batch b).mode = .onDemand →
      (q ≤ n → (s.batch b).lowMark ≤ n → n - q < (s.batch b).lowMark →
        ∃ lots t, exec (.warmerDraw b q) s = .next { t with askAnswer := some .drawServed } ∧
          (lots.map Lot.count).sum = n - q ∧
          LeadStarts b ((s.taken (.warmerDraw b q)).setBatch b { s.batch b with lots := lots }) t) ∧
      (∀ x added, (s.batch b).item = some x → added = min q ((s.batch b).capacity - n) → n + added < (s.batch b).lowMark →
        ∃ lots t, exec (.batchBump b q) s = .next t ∧ (lots.map Lot.count).sum = n + added ∧
          LeadStarts b (((s.taken (.batchBump b q)).setBatch b { s.batch b with lots := lots, outstanding := none }).handAll
            (if added < q then [WasteNotice x 1 (q - added)] else [])) t) ∧
      (n < (s.batch b).lowMark →
        ∃ t, exec (.batchCancel b) s = .next t ∧
          LeadStarts b ((s.taken (.batchCancel b)).setBatch b { s.batch b with outstanding := none }) t) ∧
      (∀ x older l newer, (s.batch b).item = some x → (s.batch b).lots = older ++ l :: newer →
        (∀ m ∈ older, (l.expiry - s.exu.dayClock).toInt < (m.expiry - s.exu.dayClock).toInt) →
        (∀ m ∈ newer, (l.expiry - s.exu.dayClock).toInt ≤ (m.expiry - s.exu.dayClock).toInt) →
        (s.batch b).lowMark ≤ n → n - l.count < (s.batch b).lowMark →
        ∃ (t : State) (ms : Nat), exec (.lotExpiry b) s = .next t ∧ (ms : Int) = max 0 (l.expiry - s.exu.dayClock).toInt ∧
          LeadStarts b ((((s.taken (.lotExpiry b)).advance ms).setBatch b { s.batch b with lots := older ++ newer }).hand
            (WasteNotice x 0 l.count)) t)) ∧
    ((s.batch b).mode ≠ .onDemand ∨ (s.batch b).lowMark ≤ n →
      ∃ t, exec (.batchCancel b) s = .next t ∧ OtherSlotsKept s t b ∧ t.batch b = { s.batch b with outstanding := none } ∧
        t = { s.taken (.batchCancel b) with isu := t.isu })

/-- R86 to R88, R90: a batch timer that runs out is loaded again with the pending interval, if any, and a lead timer becomes IDLE;
then a batch is ordered, BATCH_BEHIND with a ticket outstanding, BATCH_SKIPPED when the warmer is full, and otherwise a ticket of
the size of R87 is asked for. RESTART_BATCH loads or stops a slot's timer, and with issue_now orders a batch; word 1 is the tag of
a ticket made, and otherwise 0 with the later words (R182). R100, R97: an ask for a batch ticket makes a ticket of the slot's item
and the quantity in the lowest free record, at the station routed to, and the slot records its tag; with no route or no record
BATCH_SKIPPED says which. The model's choices (log entries 5, 6 and 30): the router is asked inside the step that orders the batch,
an expiry moves the clock on to its due time, and an ask that comes as a command leaves its answer in a field of the model. A timer
reloaded at its expiry runs, whatever the gate, as R86 says (log entry 24). -/
def Obligations.BatchesAreOrderedAndTicketed : Prop :=
  (∀ (s : State) (b : SlotId),
    (∀ x : State, ∀ seconds : Nat, (let y := x.batch b
      let ready := (y.lots.map Lot.count).sum
      let size := min (max y.baseSize (((x.demand b).fast * seconds + 8 * x.dmw.period) / (16 * x.dmw.period) - ready))
        (y.capacity - ready)
      (∀ tag, y.outstanding = some tag → makeBatch b seconds x =
        (x.hand (.noticeRaise { kind := .batchBehind, subject := Word.ofCount b.val, values := [tag.toWord] }), 2, none)) ∧
      (y.outstanding = none → size = 0 → makeBatch b seconds x =
        (x.hand (.noticeRaise { kind := .batchSkipped, subject := Word.ofCount b.val, values := [0] }), 3, none)) ∧
      (y.outstanding = none → size ≠ 0 → (makeBatch b seconds x).1 = (askBatch b size x).1 ∧
        (∀ tag, (askBatch b size x).2 = .made tag → (makeBatch b seconds x).2 = (1, some tag)) ∧
        ((askBatch b size x).2 = .noRoute ∨ (askBatch b size x).2 = .noTicket → (makeBatch b seconds x).2 = (3, none))))) ∧
    (∀ due, (s.batch b).batchTimer = .running due →
      ∃ t x cyc, exec (.batchTimerExpiry b) s = .next t ∧ cyc = (s.batch b).pendingInterval.getD (s.batch b).cycle ∧
        x = ((s.taken (.batchTimerExpiry b)).advance (due - s.uptime)).setBatch b { s.batch b with
          cycle := cyc, pendingInterval := none, batchTimer := .running (s.uptime + (due - s.uptime) + cyc * 1000) } ∧
        t = (makeBatch b cyc x).1) ∧
    (∀ due, (s.batch b).leadTimer = .running due →
      ∃ t x, exec (.leadTimerExpiry b) s = .next t ∧
        x = ((s.taken (.leadTimerExpiry b)).advance (due - s.uptime)).setBatch b { s.batch b with leadTimer := .idle } ∧
        t = (makeBatch b (EffectiveInterval (s.batch b).interval (s.factor (s.batch b).home)) x).1) ∧
    (∀ (r : Requester) (bw : Word), bw.toNat = b.val →
      ((s.batch b).mode = .off → ∃ t, exec (.restartBatch r bw 0) s = .next t ∧
        RefusedWith (.restartBatch r bw 0) .range none s t) ∧
      (∀ e x nw, (s.batch b).mode ≠ .off → (nw = 0 ∨ nw = 1) →
        e = EffectiveInterval (s.batch b).interval (s.factor (s.batch b).home) →
        ((s.batch b).mode = .onDemand →
          x = (s.taken (.restartBatch r bw nw)).setBatch b { s.batch b with leadTimer := .idle }) →
        ((s.batch b).mode = .paced → ∃ timer, LoadedWith s b timer (e * 1000) ∧
          x = (s.taken (.restartBatch r bw nw)).setBatch b { s.batch b with
            batchTimer := timer, cycle := e, pendingInterval := none }) →
        (nw = 0 → exec (.restartBatch r bw nw) s = .next (x.answerWith (.done [0]))) ∧
        (nw = 1 → exec (.restartBatch r bw nw) s = .next ((makeBatch b e x).1.answerWith (.done
          (Word.ofCount (makeBatch b e x).2.1 ::
            (match (makeBatch b e x).2.2 with
              | none => []
              | some tag => [tag.toWord])))))))) ∧
  (∀ (s : State) (b : SlotId) (x : ItemId) (q : Nat), (s.batch b).outstanding = none → (s.batch b).item = some x →
    (∀ st0 k, (s.stand (s.batch b).home).routes.getD (s.item x).prepRoute.val none = some st0 → k < 1536 →
      s.ticketAt k = none → (∀ j, j < k → s.ticketAt j ≠ none) →
      ∃ t tk tag, exec (.batchTicketAsk b q) s = .next t ∧ tag = ({ index := BitVec.ofNat 11 k, gen := (s.ticketRec k).gen } : Tag) ∧
        t.askAnswer = some (.ticketMade tag) ∧ t.batch b = { s.batch b with outstanding := some tag } ∧ OtherSlotsKept s t b ∧
        t.ticket tag = some tk ∧ tk.kind = .batch b ∧ tk.station = chooseStation s st0 ∧ tk.cls = .normal ∧
        tk.fireTime = s.exu.dayClock ∧ tk.entries = [{ ref := .slot b, item := x, quantity := q, void := false }] ∧
        tk.state ≠ .bumped ∧ tk.lateDue = none ∧
        t = { s with isu := t.isu, tkr := t.tkr, handovers := t.handovers, askAnswer := t.askAnswer }) ∧
    ((s.stand (s.batch b).home).routes.getD (s.item x).prepRoute.val none = none →
      exec (.batchTicketAsk b q) s = .next { s.taken (.batchTicketAsk b q) with
        askAnswer := some .noRoute
        handovers := (s.taken (.batchTicketAsk b q)).handovers ++
          [.noticeRaise { kind := .batchSkipped, subject := Word.ofCount b.val, values := [1] }] }) ∧
    ((s.stand (s.batch b).home).routes.getD (s.item x).prepRoute.val none ≠ none → (∀ k, k < 1536 → s.ticketAt k ≠ none) →
      exec (.batchTicketAsk b q) s = .next { s.taken (.batchTicketAsk b q) with
        askAnswer := some .noTicket
        handovers := (s.taken (.batchTicketAsk b q)).handovers ++
          [.noticeRaise { kind := .batchSkipped, subject := Word.ofCount b.val, values := [2] }] }))

/-- R85, R89, R91, R92: a level change at ISU sets the stand's factor and the pending interval of its PACED slots; a gate test
holds the timers of slots behind closed gates and lets held ones behind open gates run on; the day close wastes every lot and
starts the slots' timers afresh at level NORMAL, and keeps each slot's configuration and outstanding ticket. The order of the
wasted lots, slot by slot and oldest first, is the model's choice (log entry 50). -/
def Obligations.PaceGatesAndDayCloseAtSlots : Prop :=
  ∀ s : State,
    (∀ n lv, ∃ t, exec (.paceChangeIsu n lv) s = .next t ∧ t.factor n = lv ∧ (∀ m, m ≠ n → t.factor m = s.factor m) ∧
      (∀ b, t.batch b =
        if (s.batch b).mode = .paced ∧ (s.batch b).home = n then
          { s.batch b with
            pendingInterval := if EffectiveInterval (s.batch b).interval lv = (s.batch b).cycle then none
              else some (EffectiveInterval (s.batch b).interval lv) }
        else s.batch b) ∧
      t = { s.taken (.paceChangeIsu n lv) with isu := { s.isu with batches := t.isu.batches, levels := t.isu.levels } }) ∧
    (∃ t, exec .gateTest s = .next t ∧
      t = { s.taken .gateTest with isu := { s.isu with batches := t.isu.batches } } ∧
      ∀ b, t.batch b = { s.batch b with batchTimer := (t.batch b).batchTimer, leadTimer := (t.batch b).leadTimer } ∧
        ∀ before after, ((before, after) = ((s.batch b).batchTimer, (t.batch b).batchTimer) ∨
            (before, after) = ((s.batch b).leadTimer, (t.batch b).leadTimer)) →
          (before = .idle → after = .idle) ∧
          (∀ due, before = .running due → (GateIsOpen s b → after = .running due) ∧
            (¬ GateIsOpen s b → after = .held (due - s.uptime))) ∧
          (∀ left, before = .held left → (GateIsOpen s b → after = .running (s.uptime + left)) ∧
            (¬ GateIsOpen s b → after = .held left))) ∧
    (∃ t, exec .isuDayClose s = .next t ∧ (∀ n, t.factor n = .normal) ∧ t.isu.items = s.isu.items ∧
      (∀ b, t.batch b = { s.batch b with
          lots := [], leadTimer := .idle, batchTimer := (t.batch b).batchTimer
          cycle := if (s.batch b).mode = .paced then max 30 (s.batch b).interval else (s.batch b).cycle
          pendingInterval := if (s.batch b).mode = .paced then none else (s.batch b).pendingInterval } ∧
        ((s.batch b).mode = .paced → LoadedWith s b (t.batch b).batchTimer (max 30 (s.batch b).interval * 1000)) ∧
        ((s.batch b).mode ≠ .paced → (t.batch b).batchTimer = .idle)) ∧
      t = { s.taken .isuDayClose with
        isu := t.isu
        handovers := (s.taken .isuDayClose).handovers ++ (List.finRange 32).flatMap (fun b =>
          match (s.batch b).item with
          | none => []
          | some x => (s.batch b).lots.map (fun l => WasteNotice x 4 l.count)) })

/-! ### Firing and kitchen tickets (R93 to R116) -/

/-- R94 to R98, R103, R105: a firing passes over lines that are void or no longer HELD; it counts each line it takes; a line that a
warmer serves, or that has no route, becomes SERVED; lines routed to one station, up to 12, become FIRED on one new ticket in list
order, in the lowest free record; and with no record free they become UNSENT, in list order, and no queue changes. On a CLOSED
check the order-ready test follows (R110, R63). R1: a batch bump handed over before reaches ISU before the draw, which finds its
food. R95: a station out of service gives way to its fallback while that is LIVE. R96: the tickets of a longer firing hold up to 12
lines each, each station's in list order. The model's choices (log entries 5, 56 and 68): ISU is asked inside the step, with no lot
expiry between two draws, and while the close is on its way only its own firing makes the test. -/
def Obligations.FiringServesTicketsOrLeavesUnsent : Prop :=
  ∀ (s : State) (h : Handle) (ls : List Nat) (cause : FireCause) (cmd : Instr), cmd = .firing h ls cause →
    ((∀ i ∈ ls, ∀ c l, s.check h = some c → c.lines[i]? = some l → l.void = true ∨ l.fire ≠ .held) →
      exec cmd s = .next (s.taken cmd)) ∧
    (∀ c, s.check h = some c → ls.Nodup → ls ≠ [] →
      (∀ i ∈ ls, ∃ l, c.lines[i]? = some l ∧ l.void = false ∧ l.fire = .held) →
      (let counts := ls.filterMap (fun i => (c.lines[i]?).map (fun l => Instr.countAdd c.stand (s.item l.item).slot l.quantity))
       let route := fun (l : Line) => (s.stand c.stand).routes.getD (s.item l.item).prepRoute.val none
       let undrawn := ∀ i ∈ ls, ∀ l, c.lines[i]? = some l → ∀ b, (s.item l.item).slot = some b →
         NoneWaits s .tkr .isu ∧ ((s.batch b).lots.map Lot.count).sum < l.quantity
       let relined := fun (f : Line → Line) => c.lines.zipIdx.map (fun e => if e.2 ∈ ls then f e.1 else e.1)
       (undrawn → (∀ i ∈ ls, ∀ l, c.lines[i]? = some l → route l = none) →
         ∃ x t, exec cmd s = .next t ∧ TestedIf (c.state = .closed) (cause = .close) h x t ∧
           x.check h = some { c with lines := relined (fun l => { l with fire := .served, drawn := false }) } ∧
           OtherChecksKept s x h ∧
           x = { s.taken cmd with cks := { s.cks with slots := x.cks.slots }, handovers := (s.taken cmd).handovers ++ counts }) ∧
       (∀ i l b, ls = [i] → c.lines[i]? = some l → (s.item l.item).slot = some b → (s.batch b).mode ≠ .onDemand →
         (NoneWaits s .tkr .isu → l.quantity ≤ ((s.batch b).lots.map Lot.count).sum →
           ∃ x t, exec cmd s = .next t ∧ TestedIf (c.state = .closed) (cause = .close) h x t ∧
             x.check h = some { c with lines := c.lines.set i { l with fire := .served, drawn := true } } ∧ OtherChecksKept s x h ∧
             ((x.batch b).lots.map Lot.count).sum = ((s.batch b).lots.map Lot.count).sum - l.quantity ∧ OtherSlotsKept s x b ∧
             x = { s.taken cmd with
               cks := { s.cks with slots := x.cks.slots }, isu := x.isu, handovers := (s.taken cmd).handovers ++ counts }) ∧
         (∀ before after q food, s.handovers = before ++ .batchBump b q :: after →
           (∀ d ∈ before ++ after, pathOf d ≠ some (.tkr, .isu)) → (s.batch b).item = some l.item →
           food = ((s.batch b).lots.map Lot.count).sum + min q ((s.batch b).capacity - ((s.batch b).lots.map Lot.count).sum) →
           l.quantity ≤ food →
           ∃ x t more, exec cmd s = .next t ∧ TestedIf (c.state = .closed) (cause = .close) h x t ∧
             x.check h = some { c with lines := c.lines.set i { l with fire := .served, drawn := true } } ∧ OtherChecksKept s x h ∧
             ((x.batch b).lots.map Lot.count).sum = food - l.quantity ∧ (x.batch b).outstanding = none ∧ OtherSlotsKept s x b ∧
             x.handovers = takeFirst cmd (before ++ after) ++ counts ++ more ∧ (∀ d ∈ more, ∃ n, d = WasteNotice l.item 1 n) ∧
             x = { s with cks := { s.cks with slots := x.cks.slots }, isu := x.isu, handovers := x.handovers })) ∧
       (∀ st0 k, undrawn → ls.length ≤ 12 → (∀ i ∈ ls, ∀ l, c.lines[i]? = some l → route l = some st0) → k < 1536 →
         s.ticketAt k = none → (∀ j, j < k → s.ticketAt j ≠ none) →
         ∃ t tk tag d more, exec cmd s = .next t ∧ tag = ({ index := BitVec.ofNat 11 k, gen := (s.ticketRec k).gen } : Tag) ∧
           t.ticket tag = some tk ∧ tk.kind = .order c.stand h d ∧ tk.station = chooseStation s st0 ∧ tk.cls = c.priority ∧
           tk.fireTime = s.exu.dayClock ∧ tk.state ≠ .bumped ∧ tk.late = false ∧ tk.continuedFrom = none ∧
           tk.entries = ls.filterMap (fun i => (c.lines[i]?).map (fun l =>
             ({ ref := .line { check := h, line := i }, item := l.item, quantity := l.quantity, void := false } : Entry))) ∧
           ((s.stand c.stand).nextDisplay ∉ displaysHeld s c.stand →
             d = (s.stand c.stand).nextDisplay ∧ t.stand c.stand = { s.stand c.stand with
               nextDisplay := if 9999 ≤ d then 1 else d + 1 }) ∧
           t.check h = some { c with
             lines := relined (fun l => { l with fire := .fired, ticket := some tag })
             ticketsOut := c.ticketsOut + 1, ticketsFired := c.ticketsFired + 1, orderReady := false } ∧
           OtherChecksKept s t h ∧ t.handovers = (s.taken cmd).handovers ++ counts ++ more ∧
           t = { s with
             cks := { s.cks with slots := t.cks.slots, stands := t.cks.stands }, tkr := t.tkr, handovers := t.handovers }) ∧
       (undrawn → (∀ i ∈ ls, ∀ l, c.lines[i]? = some l → route l ≠ none) → (∀ k, k < 1536 → s.ticketAt k ≠ none) →
         ∃ t, exec cmd s = .next t ∧
           t.check h = some { c with
             lines := relined (fun l => { l with fire := .unsent, ticket := none }), ticketsOut := c.ticketsOut + ls.length } ∧
           OtherChecksKept s t h ∧
           t = { s.taken cmd with
             cks := { s.cks with slots := t.cks.slots }
             tkr := { s.tkr with unsent := s.tkr.unsent ++ ls.map (fun i => { check := h, line := i }) }
             handovers := (s.taken cmd).handovers ++ counts ++
               [.noticeRaise { kind := .unsent, subject := h.toWord,
                               values := [0, Word.ofCount ls.length,
                                          Word.ofCount (s.tkr.unsent.length + ls.length)] }] }))) ∧
    (∀ st0, ((s.link st0).state = .live ∨ (s.link st0).state = .rejoining → chooseStation s st0 = st0) ∧
      ((s.link st0).state ≠ .live → (s.link st0).state ≠ .rejoining → ∀ f, (s.link st0).fallback = some f →
        ((s.link f).state = .live → chooseStation s st0 = f) ∧ ((s.link f).state ≠ .live → chooseStation s st0 = st0)) ∧
      ((s.link st0).fallback = none → chooseStation s st0 = st0)) ∧
    (∀ tls : List (Nat × StationId), (∀ p ∈ planTickets tls, p.2 ≠ [] ∧ p.2.length ≤ 12) ∧
      ∀ st, ((planTickets tls).filter (fun p => decide (p.1 = st))).flatMap Prod.snd =
        (tls.filter (fun e => decide (e.2 = st))).map Prod.fst)

/-- R101: a live HELD line that joins the delay list becomes TIMING and stands there by its due time, among equals by its slot
number and then its line index; at its due time it leaves the list and is fired as a firing of that one line, to a ticket, a warmer
or the counter, and on a CLOSED check too: what FIRING does with the line while it is HELD. A line with no batch slot and no route
is then SERVED. An inference of the model (log entry 22): a void line, or one no longer HELD, does not join. The model's choices:
the expiry moves the clock on to the due time (log entry 6), and due times are compared round the wrap (log entry 7). -/
def Obligations.DelayedLinesWaitAndFire : Prop :=
  ∀ (s : State) (ref : LineRef) (c : Check) (l : Line), s.check ref.check = some c → c.lines[ref.line]? = some l →
    (∀ (due : Word) (new : Delay), new = { ref := ref, due := due } →
      (l.void = false → l.fire = .held → ∃ t before after, exec (.delayListJoin ref due) s = .next t ∧
        t.check ref.check = some { c with lines := c.lines.set ref.line { l with fire := .timing } } ∧
        OtherChecksKept s t ref.check ∧ s.tkr.delays = before ++ after ∧
        t.tkr = { s.tkr with delays := before ++ new :: after } ∧
        (∀ d ∈ before, ¬ DueBefore s new d) ∧ (∀ d more, after = d :: more → DueBefore s new d) ∧
        t = { s.taken (.delayListJoin ref due) with cks := { s.cks with slots := t.cks.slots }, tkr := t.tkr }) ∧
      (l.void = true ∨ l.fire ≠ .held → exec (.delayListJoin ref due) s = .next (s.taken (.delayListJoin ref due)))) ∧
    (∀ d before after (ms : Nat) x, s.tkr.delays = before ++ d :: after → d.ref = ref → (∀ e ∈ before ++ after, e.ref ≠ ref) →
      l.void = false → l.fire = .timing → (ms : Int) = max 0 (d.due - s.exu.dayClock).toInt →
      x = { (s.taken (.delayExpiry ref)).advance ms with tkr := { s.tkr with delays := before ++ after } } →
      (∀ cause, cause ≠ .close → .firing ref.check [ref.line] cause ∉ s.handovers →
        exec (.delayExpiry ref) s =
          exec (.firing ref.check [ref.line] cause) (x.setCheck ref.check { c with
            lines := c.lines.set ref.line { l with fire := .held } })) ∧
      (c.state ≠ .closed → (s.item l.item).slot = none →
        (s.stand c.stand).routes.getD (s.item l.item).prepRoute.val none = none →
        ∃ t, exec (.delayExpiry ref) s = .next t ∧
          t.check ref.check = some { c with lines := c.lines.set ref.line { l with fire := .served, drawn := false } } ∧
          OtherChecksKept s t ref.check ∧
          t = { x with
            cks := { s.cks with slots := t.cks.slots }
            handovers := x.handovers ++ [.countAdd c.stand none l.quantity] }))

/-- R106 to R109, R114: a void of a line that had fired is taken off the sample counts; it drops a TIMING line from the delay list
and an UNSENT one from the unsent list, marks a FIRED line's entry, frees a ticket left with none but void entries and makes the
retry pass (a shown one with a CLEAR frame, and before the pass the fill of its station: log entry 20), wastes cooked food, and
returns drawn food to its warmer, the same for a line whose record CKS has freed meanwhile. R104: of a check's unsent lines the
pass serves those with no route, places up to 12 for one station on one new ticket in list order, fired now, and leaves the list as
it stands while no record is free. A freed slot's lines leave both lists. The model's choices: the void carries the line's stand,
ticket reference and draw flag (log entry 39), the item's slot is read where the router takes the void (log entry 49), and the test
waits for a close on its way (log entry 56). -/
def Obligations.VoidsAndFreedSlotsReachTheKitchen : Prop :=
  ∀ s : State,
    (∀ (ref : LineRef) (x : ItemId) (q : Nat) (v : VoidedLine),
      (let cmd := Instr.kitchenVoid ref x q v
       let take := Instr.countTake v.stand (s.item x).slot q
       let uncounted : State := { s.taken cmd with handovers := (s.taken cmd).handovers ++ [take] }
       let oneLess := (s.check ref.check).map (fun c => ({ c with ticketsOut := c.ticketsOut - 1 } : Check))
       (v.was = .held → exec cmd s = .next (s.taken cmd)) ∧
       (v.was = .timing → exec cmd s = .next { s.taken cmd with
         tkr := { s.tkr with delays := s.tkr.delays.filter (fun d => decide (d.ref ≠ ref)) } }) ∧
       (v.was = .unsent →
         (ref ∉ s.tkr.unsent → exec cmd s = .next uncounted) ∧
         (ref ∈ s.tkr.unsent → ∃ t, exec cmd s = .next t ∧ t.check ref.check = oneLess ∧ OtherChecksKept s t ref.check ∧
           t = { uncounted with
             cks := { s.cks with slots := t.cks.slots }, tkr := { s.tkr with unsent := s.tkr.unsent.erase ref } })) ∧
       (v.was = .served → exec cmd s = .next { uncounted with
         handovers := uncounted.handovers ++ if v.drawn then [.voidReturn x (s.item x).slot q] else [] }) ∧
       (v.was = .fired →
         ((∀ tag tk, v.ticket = some tag → s.ticket tag = some tk → ∀ e ∈ tk.entries, e.ref ≠ .line ref) →
           exec cmd s = .next uncounted) ∧
         (∀ tag tk i tk1, v.ticket = some tag → s.ticket tag = some tk → i = tag.index.toNat →
           (∃ e ∈ tk.entries, e.ref = .line ref) →
           tk1 = { tk with entries := tk.entries.map (fun e => if e.ref = .line ref then { e with void := true } else e) } →
           (tk.state = .bumped → ∃ t, exec cmd s = .next t ∧ t.ticketAt i = some tk1 ∧ OtherTicketsKept s t i ∧
             t = { uncounted with
               tkr := { s.tkr with tickets := t.tkr.tickets }, handovers := uncounted.handovers ++ [WasteNotice x 3 q] }) ∧
           (tk.state ≠ .bumped → (∃ e ∈ tk1.entries, e.void = false) → ∃ t, exec cmd s = .next t ∧
             t.ticketAt i = some tk1 ∧ OtherTicketsKept s t i ∧
             t = { uncounted with
               tkr := { s.tkr with tickets := t.tkr.tickets }
               handovers := uncounted.handovers ++
                 match tk.slot with
                 | none => []
                 | some k => [.frameHandover tk.station (.mark k (s.tagAt i) tk.late (tk1.entries.map Entry.void))] }) ∧
           (tk.state = .waiting → (∀ e ∈ tk1.entries, e.void = true) → ∃ y, exec cmd s = .next (retryPass y) ∧
             y.ticketRec i = { gen := (s.ticketRec i).gen + 1, ticket := none } ∧ OtherTicketsKept s y i ∧
             y.queues tk.station = { s.queues tk.station with waiting := (s.queues tk.station).waiting.erase i } ∧
             (∀ a, a ≠ tk.station → y.queues a = s.queues a) ∧
             y.check ref.check = oneLess ∧ OtherChecksKept s y ref.check ∧
             y = { uncounted with
               cks := { s.cks with slots := y.cks.slots }
               tkr := { s.tkr with tickets := y.tkr.tickets, queues := y.tkr.queues } }) ∧
           (∀ k, tk.state = .shown → tk.slot = some k → (∀ e ∈ tk1.entries, e.void = true) →
             ∃ y, exec cmd s = .next (retryPass (fillAndTest tk.station y)) ∧
             y.ticketRec i = { gen := (s.ticketRec i).gen + 1, ticket := none } ∧ OtherTicketsKept s y i ∧
             y.queues tk.station = { s.queues tk.station with shown := (s.queues tk.station).shown.erase i } ∧
             (∀ a, a ≠ tk.station → y.queues a = s.queues a) ∧
             y.check ref.check = oneLess ∧ OtherChecksKept s y ref.check ∧
             y = { uncounted with
               cks := { s.cks with slots := y.cks.slots }
               tkr := { s.tkr with tickets := y.tkr.tickets, queues := y.tkr.queues }
               handovers := uncounted.handovers ++ [.frameHandover tk.station (.clearSlot k)] }))))) ∧
    (∀ (h : Handle) (ls : List Nat) (d : Check), s.check h = some d → s.tkr.unsent = ls.map (fun j => { check := h, line := j }) →
      ls.Nodup → (∀ j ∈ ls, ∃ m, d.lines[j]? = some m ∧ m.void = false) →
      (let route := fun (m : Line) => (s.stand d.stand).routes.getD (s.item m.item).prepRoute.val none
       let relined := fun (f : Line → Line) => d.lines.zipIdx.map (fun e => if e.2 ∈ ls then f e.1 else e.1)
       (ls = [] → retryPass s = s) ∧
       ((∀ j ∈ ls, ∀ m, d.lines[j]? = some m → route m = none) → ls ≠ [] →
         ∃ y, TestedIf True False h y (retryPass s) ∧
           y.check h = some { d with
             lines := relined (fun m => { m with fire := .served, drawn := false }), ticketsOut := d.ticketsOut - ls.length } ∧
           OtherChecksKept s y h ∧
           y = { s with cks := { s.cks with slots := y.cks.slots }, tkr := { s.tkr with unsent := [] } }) ∧
       (∀ st0 k, (∀ j ∈ ls, ∀ m, d.lines[j]? = some m → route m = some st0) → ls ≠ [] → ls.length ≤ 12 → k < 1536 →
         s.ticketAt k = none → (∀ j, j < k → s.ticketAt j ≠ none) → (∀ a, k ∉ (s.queues a).waiting ∧ k ∉ (s.queues a).shown) →
         ∃ y tk tag n more, tag = ({ index := BitVec.ofNat 11 k, gen := (s.ticketRec k).gen } : Tag) ∧
           TestedIf True False h y (retryPass s) ∧ y.tkr.unsent = [] ∧
           y.ticket tag = some tk ∧ tk.kind = .order d.stand h n ∧ tk.station = chooseStation s st0 ∧ tk.cls = d.priority ∧
           tk.fireTime = s.exu.dayClock ∧ tk.state ≠ .bumped ∧ tk.late = false ∧ tk.continuedFrom = none ∧
           (k ∈ (y.queues tk.station).waiting ∨ k ∈ (y.queues tk.station).shown) ∧
           tk.entries = ls.filterMap (fun j => (d.lines[j]?).map (fun m =>
             ({ ref := .line { check := h, line := j }, item := m.item, quantity := m.quantity, void := false } : Entry))) ∧
           y.check h = some { d with
             lines := relined (fun m => { m with fire := .fired, ticket := some tag })
             ticketsOut := d.ticketsOut + 1 - ls.length, ticketsFired := d.ticketsFired + 1, orderReady := false } ∧
           OtherChecksKept s y h ∧ y.handovers = s.handovers ++ more ∧
           y = { s with
             cks := { s.cks with slots := y.cks.slots, stands := y.cks.stands }, tkr := y.tkr, handovers := y.handovers }) ∧
       ((∀ j ∈ ls, ∀ m, d.lines[j]? = some m → route m ≠ none) → (∀ k, k < 1536 → s.ticketAt k ≠ none) → retryPass s = s))) ∧
    (∀ h, ∃ t, exec (.slotFreed h) s = .next t ∧
      t.tkr.delays = s.tkr.delays.filter (fun d => decide (d.ref.check ≠ h)) ∧
      t.tkr.unsent = s.tkr.unsent.filter (fun r => decide (r.check ≠ h)) ∧
      (let lost := (s.tkr.delays.filter (fun d => decide (d.ref.check = h))).length +
         (s.tkr.unsent.filter (fun r => decide (r.check = h))).length
       t = { s.taken (.slotFreed h) with
         tkr := { s.tkr with delays := t.tkr.delays, unsent := t.tkr.unsent }
         handovers := (s.taken (.slotFreed h)).handovers ++
           if lost = 0 then []
           else [.noticeRaise { kind := .unsent, subject := h.toWord,
                                values := [1, Word.ofCount lost, Word.ofCount t.tkr.unsent.length] }] }))

/-- R110, R111, R62: told of a close, the router sets the order-ready flag of a CLOSED check that has it clear, no live line TIMING
or UNSENT, none HELD in an ON_SETTLE stand, no ticket outstanding and something fired or served, and raises ORDER_READY; otherwise
nothing changes. -/
def Obligations.OrderReadyIsRaisedAtTheClose : Prop :=
  ∀ (s : State) (h : Handle) (c : Check), s.check h = some c →
    ∃ t, exec (.checkCloseTold h) s = .next t ∧
      (ReadyNow s c → ∃ ws, ws.length = 5 ∧ ws.getD 0 0 = Word.ofCount c.stand.val ∧
        ws.getD 1 0 = Word.ofCount (s.tickets.filter (fun e =>
          match e.2.kind with
          | .order _ g _ => decide (g = h)
          | .batch _ => false)).length ∧
        t.check h = some { c with orderReady := true } ∧ OtherChecksKept s t h ∧
        t = { s.taken (.checkCloseTold h) with
          cks := { s.cks with slots := t.cks.slots }
          handovers := (s.taken (.checkCloseTold h)).handovers ++
            [.noticeRaise { kind := .orderReady, subject := h.toWord, values := ws }] }) ∧
      (¬ ReadyNow s c → t = s.taken (.checkCloseTold h))

/-! ### Station queues (R117 to R138) -/

/-- R126, R127, R117, R105, R110, R136, in a state whose queues are in order: a bump of a ticket shown at the station moves it to
the front of the bumped list, clears its slot on the display, takes one off its check's outstanding tickets, with the order-ready
test, or hands a batch's food to ISU, raises an order ticket's TICKET_STATE, makes the station's fill and displacement test, and is
answered ACK; a seventh bumped ticket is freed, and the retry pass follows last. R63: while the close of the check is on its way to
the router the test is left to the close (log entry 56). Any other bump is answered STALE with a refresh, and changes nothing. -/
def Obligations.BumpMovesAShownTicketToTheBumpedList : Prop :=
  ∀ (s : State) (st : StationId) (tag : Tag), QueuesOk s →
    ((∀ tk, s.ticket tag = some tk → tk.state = .shown → tk.station ≠ st) →
      exec (.bump st tag) s = .next { s.taken (.bump st tag) with
        handovers := (s.taken (.bump st tag)).handovers ++ [.keyAnswer st .stale, .refreshRequest st] }) ∧
    (∀ tk i k tk1, s.ticket tag = some tk → tk.state = .shown → tk.station = st → i = tag.index.toNat → tk.slot = some k →
      tk1 = { tk with state := .bumped, slot := none, shownTime := none, focusDue := none, lateDue := none } →
      ∃ z y effects more,
        exec (.bump st tag) s =
          .next ((if (s.queues st).bumped.length < 6 then y else retryPass y).hand (.keyAnswer st .ack)) ∧
        y = fillAndTest st z ∧ displacement y st = none ∧
        ((s.link st).state = .live → (y.queues st).waiting = [] ∨
          ∀ m, m < (s.link st).count → ∃ j tj, j ∈ (y.queues st).shown ∧ y.ticketAt j = some tj ∧ tj.slot = some m) ∧
        y = { z with tkr := y.tkr, handovers := z.handovers ++ more } ∧
        y.ticketAt i = some tk1 ∧ (y.queues st).bumped = (z.queues st).bumped ∧ i ∉ (y.queues st).shown ∧
        z.ticketAt i = some tk1 ∧
        z.queues st = { s.queues st with
          shown := (s.queues st).shown.erase i, bumped := (i :: (s.queues st).bumped).take 6 } ∧
        (∀ a, a ≠ st → z.queues a = s.queues a) ∧
        (∀ j, j ≠ i → (s.queues st).bumped[5]? ≠ some j → z.ticketRec j = s.ticketRec j) ∧
        (∀ j, (s.queues st).bumped[5]? = some j → z.ticketRec j = { gen := (s.ticketRec j).gen + 1, ticket := none } ∧
          y.ticketRec j = z.ticketRec j) ∧
        (∀ b, tk.kind = .batch b → effects = [.batchBump b ((tk.entries.map Entry.quantity).sum)] ∧ z.cks = s.cks) ∧
        (∀ n h d, tk.kind = .order n h d → s.check h = none → effects = [] ∧ z.cks = s.cks) ∧
        (∀ n h d c, tk.kind = .order n h d → s.check h = some c →
          (let c1 : Check := { c with ticketsOut := c.ticketsOut - 1 }
           OtherChecksKept s z h ∧
           (.checkCloseTold h ∈ s.handovers ∨ ¬ ReadyNow s c1 → z.check h = some c1 ∧ effects = []) ∧
           (.checkCloseTold h ∉ s.handovers → ReadyNow s c1 →
             z.check h = some { c1 with orderReady := true } ∧
             ∃ ws, effects = [.noticeRaise { kind := .orderReady, subject := h.toWord, values := ws }]))) ∧
        z = { s with
          cks := { s.cks with slots := z.cks.slots }, tkr := z.tkr
          handovers := (s.taken (.bump st tag)).handovers ++ [.frameHandover st (.clearSlot k)] ++ effects ++
            TicketStateNotice s i tk1 })

/-- R129 to R131, R112, R124, R136, R120, in a state whose queues are in order: RECALL brings back the order ticket at the front of
the station's bumped list, and RECALL_TICKET any bumped order ticket: it leaves the bumped list with its entries and fire time
kept, a LIVE link with a free slot is handed its SHOW frame for the lowest one, its check has one more outstanding, and a set
order-ready flag is cleared with ORDER_RECALLED. A ticket at or past its stand's late limit turns late, with a MARK frame where it
is shown, and another's late timer is due at the limit; TICKET_STATE is raised as the ticket then stands, and the station's fill
and displacement test follow. With none to bring back the key is STALE, and the request NO_TICKET or RANGE. Inferences of the
model: the age is counted on the millisecond count (log entry 57), and the limit read from Demand Watch (log entry 58). -/
def Obligations.RecallsBringBackBumpedTickets : Prop :=
  ∀ (s : State) (st : StationId) (key : Tag) (r : Requester) (w : Word), QueuesOk s →
    ((∀ i more tk, (s.queues st).bumped = i :: more → s.ticketAt i = some tk → ∃ b, tk.kind = .batch b) →
      exec (.recall st key) s = .next { s.taken (.recall st key) with
        handovers := (s.taken (.recall st key)).handovers ++ [.keyAnswer st .stale] }) ∧
    (∀ tag, tagOf w = some tag →
      (s.ticket tag = none → ∃ t, exec (.recallTicket r w) s = .next t ∧
        RefusedWith (.recallTicket r w) .noTicket none s t) ∧
      (∀ tk, s.ticket tag = some tk → ((∃ b, tk.kind = .batch b) ∨ tk.state ≠ .bumped) →
        ∃ t, exec (.recallTicket r w) s = .next t ∧ RefusedWith (.recallTicket r w) .range none s t)) ∧
    (∀ i tk n h d c, i ∈ (s.queues st).bumped → s.ticketAt i = some tk → tk.kind = .order n h d → s.check h = some c →
      (let back := fun (cmd : Instr) (t : State) =>
        exec cmd s = .next t ∧
        (t.queues st).bumped = (s.queues st).bumped.erase i ∧
        (∃ tk1, t.ticketAt i = some tk1 ∧ tk1.state ≠ .bumped ∧ tk1.kind = tk.kind ∧ tk1.entries = tk.entries ∧
          tk1.cls = tk.cls ∧ tk1.fireTime = tk.fireTime) ∧
        t.check h = some { c with ticketsOut := c.ticketsOut + 1, orderReady := false } ∧ OtherChecksKept s t h ∧
        (c.orderReady = true →
          .noticeRaise { kind := .orderRecalled, subject := h.toWord, values := [Word.ofCount d] } ∈ t.handovers) ∧
        (∀ k, (s.link st).state = .live → freeSlot s st = some k →
          .frameHandover st (showFrame (s.tagAt i) tk k) ∈ t.handovers) ∧
        (let place := if (s.link st).state = .live then freeSlot s st else none
         let due := tk.firedAt + LateInForce (s.pace n) * 1000
         let late := tk.late || decide (due ≤ s.uptime)
         (∀ tk1, t.ticketAt i = some tk1 → tk1.late = late ∧ (late = false → tk1.lateDue = some due)) ∧
         (∀ k, place = some k → tk.late = false → late = true →
           .frameHandover st (.mark k (s.tagAt i) true (tk.entries.map Entry.void)) ∈ t.handovers) ∧
         (∀ e ∈ TicketStateNotice s i { tk with
           state := if place.isSome then .shown else .waiting, slot := place, late := late }, e ∈ t.handovers)) ∧
        displacement t st = none ∧
        ((s.link st).state = .live → (t.queues st).waiting = [] ∨
          ∀ k, k < (s.link st).count → ∃ j tj, j ∈ (t.queues st).shown ∧ t.ticketAt j = some tj ∧ tj.slot = some k) ∧
        t = { s with exu := t.exu, cks := { s.cks with slots := t.cks.slots }, tkr := t.tkr, handovers := t.handovers }
       ((s.queues st).bumped.head? = some i →
         ∃ t, back (.recall st key) t ∧ t.exu = s.exu ∧ t.handovers.getLast? = some (.keyAnswer st .ack)) ∧
       (w = (s.tagAt i).toWord → ∃ t tk1, back (.recallTicket r w) t ∧ t.ticketAt i = some tk1 ∧
         DoneWith [Word.ofCount tk1.state.code, Word.ofCount tk1.station.val, countWord tk1.slot] s t)))

/-- R132, R121, R124: PRIORITIZE writes an order ticket's class, shows a shown one afresh, and answers its state and slot; the same
class changes nothing, and a bumped or batch ticket is refused RANGE. A focus timer that runs out lets the station's displacement
test be made; a late timer that runs out makes the ticket late, with its notice and, while shown, a MARK frame. The model's choice
(log entry 6): an expiry moves the clock on to its due moment. -/
def Obligations.PrioritizeFocusAndLateTimers : Prop :=
  ∀ (s : State) (tag : Tag) (tk : Ticket) (i : Nat), s.ticket tag = some tk → i = tag.index.toNat →
    (∀ (r : Requester) (cls : TicketClass) (cmd : Instr), cmd = .prioritize r tag.toWord (BitVec.ofNat 32 cls.rank) →
      ((tk.state = .bumped ∨ ∃ b, tk.kind = .batch b) → ∃ t, exec cmd s = .next t ∧ RefusedWith cmd .range none s t) ∧
      (∀ n h d, tk.kind = .order n h d → tk.state ≠ .bumped →
        (tk.cls = cls → exec cmd s = .next ((s.taken cmd).answerWith
          (.done [Word.ofCount tk.state.code, countWord tk.slot]))) ∧
        (tk.cls ≠ cls → ∃ t tk1, exec cmd s = .next t ∧ t.ticket tag = some tk1 ∧ tk1.cls = cls ∧ tk1.kind = tk.kind ∧
          tk1.entries = tk.entries ∧ tk1.station = tk.station ∧
          DoneWith [Word.ofCount tk1.state.code, countWord tk1.slot] s t ∧
          (∀ k, tk.slot = some k →
            .frameHandover tk.station (showFrame (s.tagAt i) { tk with cls := cls } k) ∈ t.handovers) ∧
          t = { s with exu := t.exu, tkr := t.tkr, handovers := t.handovers }))) ∧
    (∀ due, tk.focusDue = some due → ∃ x, exec (.focusTimerExpiry tag) s = .next (displaceTest tk.station x) ∧
      x.ticketAt i = some { tk with focusDue := none } ∧ OtherTicketsKept s x i ∧
      x = { (s.taken (.focusTimerExpiry tag)).advance (due - s.uptime) with
        tkr := { s.tkr with tickets := x.tkr.tickets } }) ∧
    (∀ due, tk.lateDue = some due → ∃ t, exec (.lateTimerExpiry tag) s = .next t ∧
      t.ticketAt i = some { tk with late := true, lateDue := none } ∧ OtherTicketsKept s t i ∧
      t = { (s.taken (.lateTimerExpiry tag)).advance (due - s.uptime) with
        tkr := { s.tkr with tickets := t.tkr.tickets }
        handovers := (s.taken (.lateTimerExpiry tag)).handovers ++
          (match tk.kind with
            | .batch _ => []
            | .order _ h d =>
              [.noticeRaise
                { kind := .ticketState, subject := (s.tagAt i).toWord,
                  values := [Word.ofCount tk.state.code, Word.ofCount tk.station.val, countWord tk.slot,
                    Word.ofCount (tk.cls.rank + 256 + d * 65536), h.toWord] }]) ++
          (match tk.slot with
            | none => []
            | some k => [.frameHandover tk.station (.mark k (s.tagAt i) true (tk.entries.map Entry.void))]) })

/-- R119, R120, R122, R123, in a state whose queues are in order: after a station's fill and displacement test no ticket waits
beside a free slot of a LIVE link, and no displacement is left to make. A displacement is due exactly where the link is LIVE, no
slot is free, and of the shown tickets below the waiting head's class the candidate (the lowest class, then the newest, then the
highest index) is past its focus minimum; it clears the slot, puts the candidate back to WAITING and shows the head in that slot.
Inferences of the model: a shown age is counted by the day clock (log entry 7), fire times are compared as moments (log entry 57),
and the minimum is read from Demand Watch (log entry 58). The model's choice: for a batch ticket it is that of its slot's home
stand as it then stands (log entry 71). -/
def Obligations.FillAndTestLeavesNothingToShow : Prop :=
  ∀ (s : State) (st : StationId), QueuesOk s →
    (let t := fillAndTest st s
     t = { s with tkr := t.tkr, handovers := t.handovers } ∧ s.handovers <+: t.handovers ∧ QueuesOk t ∧
     ((t.link st).state = .live →
       (t.queues st).waiting = [] ∨
       ∀ k, k < (t.link st).count → ∃ i tk, i ∈ (t.queues st).shown ∧ t.ticketAt i = some tk ∧ tk.slot = some k) ∧
     displacement t st = none) ∧
    (∀ c h, displacement s st = some (c, h) ↔
      (s.link st).state = .live ∧
      (∀ k, k < (s.link st).count → ∃ i tk, i ∈ (s.queues st).shown ∧ s.ticketAt i = some tk ∧ tk.slot = some k) ∧
      (s.queues st).waiting.head? = some h ∧ c ∈ (s.queues st).shown ∧
      ∃ tc th, s.ticketAt c = some tc ∧ s.ticketAt h = some th ∧ tc.cls.rank < th.cls.rank ∧ PastFocus s tc ∧
        ∀ j tj, j ∈ (s.queues st).shown → j ≠ c → s.ticketAt j = some tj → tj.cls.rank < th.cls.rank → GivesWayBefore c j tc tj) ∧
    (∀ c h k tc th, displacement s st = some (c, h) → s.ticketAt c = some tc → s.ticketAt h = some th → tc.slot = some k →
      ∃ t, displace st c h s = t ∧ tc.cls.rank < th.cls.rank ∧
        t.ticketAt c = some { tc with state := .waiting, slot := none, shownTime := none, focusDue := none } ∧
        t.ticketAt h = some { th with
          state := .shown, slot := some k, shownTime := some s.exu.dayClock, focusDue := some (s.uptime + focusMs s th) } ∧
        t.handovers = s.handovers ++
          [.frameHandover st (.clearSlot k), .frameHandover st (showFrame (s.tagAt h) th k)])

/-- R133 to R136, R125, R157, R174, in a state whose queues are in order: a station that goes out of service has its shown tickets
back in its waiting queue, and with a LIVE fallback hands that whole queue to it, each moved ticket with its TICKET_STATE; a rejoin
with fewer slots sends back those above; a station told STARTING, or given a new fallback, that is stranded hands its queue to the
fallback; one told LIVE makes its fill and test, and takes the queues of the stations stranded on it; a pace change makes late the
tickets past the limit announced and puts off the others, moves the focus timers still running to the minimum announced, or runs
them out, and makes the displacement tests. The model's choices: the values used are those announced, whatever Demand Watch holds
(log entry 19), a ticket's age is counted on the millisecond count (log entry 57) and its shown age by the day clock (log entry 7),
the displacement test reads Demand Watch (log entry 58), and a batch ticket is of the stand its slot's home then is (log entry 71).
That a station told LIVE takes the queues stranded on it follows R134, where R156 can be read otherwise, and that its own fill
comes first is inferred (log entry 21). -/
def Obligations.LinkFallbackAndPaceChangesAtTheQueues : Prop :=
  ∀ (s : State) (st : StationId), QueuesOk s →
    (∀ state, (state = .dark ∨ state = .offline) → (∀ f, (s.link st).fallback = some f → (s.link f).state ≠ .live) →
      ∃ t, exec (.linkStateTkr st state none) s = .next t ∧ (t.queues st).shown = [] ∧
        (∀ i, i ∈ (t.queues st).waiting ↔ i ∈ (s.queues st).waiting ∨ i ∈ (s.queues st).shown) ∧
        (t.queues st).bumped = (s.queues st).bumped ∧ (∀ a, a ≠ st → t.queues a = s.queues a) ∧
        t = { s.taken (.linkStateTkr st state none) with
          tkr := { s.tkr with tickets := t.tkr.tickets, queues := t.tkr.queues } }) ∧
    (∀ state f, (state = .dark ∨ state = .offline) → (s.link st).state = state → (s.link st).fallback = some f →
      (s.link f).state = .live →
      ∃ t, exec (.linkStateTkr st state none) s = .next t ∧ (t.queues st).shown = [] ∧ (t.queues st).waiting = [] ∧
        (t.queues st).bumped = (s.queues st).bumped ∧ (∀ a, a ≠ st → a ≠ f → t.queues a = s.queues a) ∧
        (∀ i tk, i ∈ (s.queues st).waiting ∨ i ∈ (s.queues st).shown → s.ticketAt i = some tk → MovedTo s t f i tk) ∧
        t = { s with tkr := t.tkr, handovers := t.handovers }) ∧
    (∀ n, (s.link st).state = .rejoining → ∃ t, exec (.linkStateTkr st .rejoining (some n)) s = .next t ∧
      (∀ i tk k, s.ticketAt i = some tk → i ∈ (s.queues st).shown → tk.slot = some k →
        (k < n → i ∈ (t.queues st).shown ∧ t.ticketAt i = some tk) ∧
        (n ≤ k → i ∈ (t.queues st).waiting ∧
          t.ticketAt i = some { tk with state := .waiting, slot := none, shownTime := none, focusDue := none })) ∧
      t = { s.taken (.linkStateTkr st .rejoining (some n)) with
        tkr := { s.tkr with tickets := t.tkr.tickets, queues := t.tkr.queues } }) ∧
    (∀ cmd, (cmd = .fallbackChangeTkr st ∨ cmd = .linkStateTkr st .starting none) →
      ((s.link st).state = .live ∨ (s.link st).state = .rejoining ∨
          (∀ f, (s.link st).fallback = some f → (s.link f).state ≠ .live) →
        exec cmd s = .next (s.taken cmd)) ∧
      (∀ f, (s.link st).fallback = some f → (s.link f).state = .live → (s.link st).state ≠ .live →
        (s.link st).state ≠ .rejoining →
        ∃ t, exec cmd s = .next t ∧ (t.queues st).waiting = [] ∧
          (∀ i tk, i ∈ (s.queues st).waiting → s.ticketAt i = some tk → MovedTo s t f i tk) ∧
          t = { s with tkr := t.tkr, handovers := t.handovers })) ∧
    ((s.link st).state = .live →
      ((∀ a, (s.link a).fallback ≠ some st) →
        exec (.linkStateTkr st .live none) s = .next (fillAndTest st (s.taken (.linkStateTkr st .live none)))) ∧
      ∃ t, exec (.linkStateTkr st .live none) s = .next t ∧ displacement t st = none ∧
        ((t.queues st).waiting = [] ∨
          ∀ k, k < (s.link st).count → ∃ i tk, i ∈ (t.queues st).shown ∧ t.ticketAt i = some tk ∧ tk.slot = some k) ∧
        (∀ a, (s.link a).fallback = some st → (s.link a).state ≠ .live → (s.link a).state ≠ .rejoining →
          (t.queues a).waiting = [] ∧
            ∀ i tk, i ∈ (s.queues a).waiting → s.ticketAt i = some tk → MovedTo s t st i tk) ∧
        t = { s with tkr := t.tkr, handovers := t.handovers }) ∧
    (∀ n lv focus late, ∃ t, exec (.paceChangeTkr n ⟨lv, focus, late⟩) s = .next t ∧
      t = { s with tkr := t.tkr, handovers := t.handovers } ∧
      ∀ i tk a h d, s.ticketAt i = some tk → tk.kind = .order a h d → a = n → tk.state ≠ .bumped →
        ∃ tk1, t.ticketAt i = some tk1 ∧ tk1.entries = tk.entries ∧ tk1.station = tk.station ∧
          tk1.late = (tk.late || decide (tk.firedAt + late * 1000 ≤ s.uptime)) ∧
          (tk1.late = false → tk1.lateDue = some (tk.firedAt + late * 1000))) ∧
    (∀ n lv focus late, ∃ t, exec (.paceChangeTkr n ⟨lv, focus, late⟩) s = .next t ∧
      (∀ i tk due shown, s.ticketAt i = some tk → StandOfTicket s tk n → tk.state = .shown → tk.focusDue = some due →
        tk.shownTime = some shown →
        ∃ tk1, t.ticketAt i = some tk1 ∧
          (tk1.state = .shown → tk1.shownTime = some shown ∧
            tk1.focusDue = (let age := (s.exu.dayClock - shown).toNat
              if focus * 1000 ≤ age then none else some (s.uptime + (focus * 1000 - age)))) ∧
          (tk1.state ≠ .shown → tk1.state = .waiting ∧ tk1.focusDue = none)) ∧
      (∀ a i tk, i ∈ (s.queues a).shown → s.ticketAt i = some tk → StandOfTicket s tk n → displacement t a = none))

/-- R115, R148, in a state whose queues are in order: the router's day close frees every ticket and empties every queue, clears
each shown slot, and cancels batch tickets at ISU; an ask for the shown set is answered with a SHOW frame for each shown ticket,
their slots rising, and changes nothing. The ask's number is the model's own (log entry 33). -/
def Obligations.RouterDayCloseAndShownSets : Prop :=
  ∀ s : State, QueuesOk s →
    (∃ t, exec .tkrDayClose s = .next t ∧ (∀ i, t.ticketAt i = none) ∧ (∀ st, t.queues st = {}) ∧
      (∀ i, (t.ticketRec i).gen = (s.ticketRec i).gen + if (s.ticketAt i).isSome then 1 else 0) ∧
      t.tkr.delays = s.tkr.delays ∧ t.tkr.unsent = s.tkr.unsent ∧
      (∀ i tk k, s.ticketAt i = some tk → tk.slot = some k → .frameHandover tk.station (.clearSlot k) ∈ t.handovers) ∧
      (∀ i tk b, s.ticketAt i = some tk → tk.kind = .batch b → tk.state ≠ .bumped → .batchCancel b ∈ t.handovers) ∧
      (∀ st, (t.link st) = s.link st) ∧
      t = { s with cks := { s.cks with slots := t.cks.slots }, tkr := t.tkr, handovers := t.handovers }) ∧
    (∀ st ask, ∃ shows : List Frame, exec (.shownSetAsk st ask) s = .next { s.taken (.shownSetAsk st ask) with
        handovers := (s.taken (.shownSetAsk st ask)).handovers ++ [.refreshAnswer st ask shows] } ∧
      shows.length = (s.queues st).shown.length ∧
      ∀ (j i : Nat) tk k, (s.queues st).shown[j]? = some i → s.ticketAt i = some tk → tk.slot = some k →
        shows[j]? = some (showFrame (s.tagAt i) tk k) ∧
        ∀ (m a : Nat) tm l, j < m → (s.queues st).shown[m]? = some a → s.ticketAt a = some tm → tm.slot = some l → k < l)

/-! ### Station links (R139 to R158) -/

/-- R149, R150, R145, R209: a well-formed KEY is passed to the router in LIVE and REJOINING and its answer waits for the decision,
which KEY_ANSWER sends; in STARTING and DARK it is STALE; a wrong check byte is NAK_CHECK, a malformed body or an unknown kind
BAD_FRAME; in OFFLINE every frame is ignored, and a STATUS is never answered. The record of the line is the model's own (log entry
11). -/
def Obligations.KeysAndRefusedFramesAreAnswered : Prop :=
  ∀ (s : State) (st : StationId) (l : Link), l = s.link st →
    (l.state = .offline → ∀ cmd, (∃ body ok, cmd = .keyFrame st body ok) ∨ (∃ body ok, cmd = .hello st body ok) ∨
        (∃ kind ok, cmd = .frameRejected st kind ok) → exec cmd s = .next (s.taken cmd)) ∧
    (∀ ok, exec (.frameRejected st 0x20 ok) s = .next (s.taken (.frameRejected st 0x20 ok))) ∧
    (l.state ≠ .offline → (l.Quiet ∨ ∃ f, l.inFlight = some f ∧ f.sent = false) →
      (let replies := fun (cmd : Instr) (code : StatusCode) =>
        ∃ t l1, exec cmd s = .next t ∧ l.AnswersWith code l1 ∧ LinkBecame st l1 [] (s.taken cmd) t
       (∀ body, replies (.keyFrame st body false) .nakCheck ∧ replies (.hello st body false) .nakCheck ∧
         (body.length ≠ 3 → replies (.keyFrame st body true) .badFrame) ∧
         (body.length ≠ 1 → replies (.hello st body true) .badFrame)) ∧
       (∀ kind, kind ≠ 0x20 → replies (.frameRejected st kind false) .nakCheck ∧ replies (.frameRejected st kind true) .badFrame) ∧
       (∀ key b0 b1, key ≠ 1 → key ≠ 2 → replies (.keyFrame st [key, b0, b1] true) .badFrame) ∧
       (∀ key b0 b1, (key = 1 ∨ key = 2) → l.state ≠ .live → l.state ≠ .rejoining →
         replies (.keyFrame st [key, b0, b1] true) .stale))) ∧
    (∀ key b0 b1 tag, (key = 1 ∨ key = 2) → l.state = .live ∨ l.state = .rejoining → tag = tagOfBytes b0 b1 →
      ∃ t, exec (.keyFrame st [key, b0, b1] true) s = .next t ∧
        tag.index.toNat = b0.toNat + 256 * (b1.toNat % 8) ∧ tag.gen.toNat = b1.toNat / 16 ∧
        LinkBecame st { l with answers := l.answers ++ [none] } [if key = 1 then .bump st tag else .recall st tag]
          (s.taken (.keyFrame st [key, b0, b1] true)) t) ∧
    (∀ code later rest, l.answers = none :: (later.map some ++ rest) → (rest = [] ∨ ∃ more, rest = none :: more) →
      ((∀ f, l.inFlight = some f → f.sent = true) →
        (l.outbox = [] ∨ l.inFlight ≠ none ∨ l.refreshAwaited = true ∨ (l.state ≠ .live ∧ l.state ≠ .rejoining)) →
        ∃ t, exec (.keyAnswer st code) s = .next t ∧
          LinkBecame st { l with
            answers := rest, wire := l.wire ++ (code :: later).map (fun c => frameBytes (.status c)) } []
            (s.taken (.keyAnswer st code)) t) ∧
      ((∃ f, l.inFlight = some f ∧ f.sent = false) →
        ∃ t, exec (.keyAnswer st code) s = .next t ∧
          LinkBecame st { l with answers := some code :: (later.map some ++ rest) } [] (s.taken (.keyAnswer st code)) t))

/-- R154, R146, R152, R153, R155: a well-formed HELLO is answered ACK and starts a rejoin with its count clamped to 4..8; a STATUS
acts on the frame in flight while its status timer runs: ACK completes it, and a rejoin with it, STALE completes it and makes a
refresh, a first failure resends it, a second or a tenth BUSY makes the link DARK, and an ACK to a PROBE starts a rejoin; a STATUS
that answers nothing is discarded. The record of the line and the ask's number are the model's own (log entries 11 and 33); that a
STATUS of a resend still being sent counts is an inference (log entry 12), and that such a resend counts as left is the model's
choice (log entry 72). -/
def Obligations.HelloAndStatusDriveTheLink : Prop :=
  ∀ (s : State) (st : StationId) (l : Link), l = s.link st → l.answers = [] →
    (∀ b : Byte, l.state ≠ .offline →
      ∃ (t : State) (n : Nat), exec (.hello st [b] true) s = .next t ∧ 4 ≤ n ∧ n ≤ 8 ∧ (4 ≤ b.toNat → b.toNat ≤ 8 → n = b.toNat) ∧
        (b.toNat < 4 → n = 4) ∧ (8 < b.toNat → n = 8) ∧
        LinkBecame st { l.Rejoining (some n) n with wire := l.wire ++ [frameBytes (.status .ack)] }
          (Announced st .rejoining l.state 1 n (some n) ++ [.shownSetAsk st (l.askNo + 1)]) (s.taken (.hello st [b] true)) t) ∧
    ((l.inFlight = none ∨ (l.statusDue = none ∧ l.failures = 0)) → ∀ body ok,
      exec (.status st body ok) s = .next (s.taken (.status st body ok))) ∧
    (∀ f, l.inFlight = some f → (f.sent = true ∧ l.statusDue ≠ none) ∨ (f.sent = false ∧ l.failures ≠ 0) →
      (let become := fun (code : StatusCode) (l1 : Link) (more : List Instr) =>
        ∃ t, exec (.status st [code.byte] true) s = .next t ∧ LinkBecame st l1 more (s.taken (.status st [code.byte] true)) t
       let done : Link := { l with inFlight := none, statusDue := none, failures := 0, busies := 0 }
       (∀ body, f.isProbe = false → exec (.status st body false) s = .next (s.taken (.status st body false))) ∧
       (f.isProbe = false → f.rejoin = false → (l.outbox = [] ∨ (l.state ≠ .live ∧ l.state ≠ .rejoining)) →
         become .ack done []) ∧
       (∀ e more, f.isProbe = false → f.rejoin = false → l.outbox = e :: more → l.state = .live → l.refreshAwaited = false →
         become .ack { done with
           outbox := more, inFlight := some { frame := e.frame, isProbe := false, rejoin := e.rejoin, sent := false }
           busyDue := none, wire := l.wire ++ [frameBytes e.frame] } []) ∧
       (f.isProbe = false → f.rejoin = true → l.outbox = [] → l.refreshAwaited = false →
         become .ack { done with state := .live } (Announced st .live l.state 3 l.count none)) ∧
       (f.isProbe = false → f.rejoin = false → (l.state = .live ∨ l.state = .rejoining) → l.refreshAwaited = false →
         become .stale { done with outbox := [], refreshAwaited := true, askNo := l.askNo + 1 }
           [.shownSetAsk st (l.askNo + 1)]) ∧
       (∀ code, (code = .nakCheck ∨ code = .badFrame) → f.isProbe = false →
         (l.failures = 0 → become code { l with
           failures := 1, busies := 0, inFlight := some { f with sent := false }, statusDue := none, busyDue := none
           wire := l.wire ++ [frameBytes f.frame] } []) ∧
         (l.failures ≠ 0 → become code (l.GoneDark s.uptime) (Announced st .dark l.state 4 l.count none))) ∧
       (f.isProbe = false → l.busies + 1 < 10 →
         become .busy { l with
           failures := 0, busies := l.busies + 1, inFlight := some { f with sent := true }, statusDue := none
           busyDue := some (s.uptime + 40) } []) ∧
       (f.isProbe = false → 10 ≤ l.busies + 1 →
         become .busy (l.GoneDark s.uptime) (Announced st .dark l.state 5 l.count none)) ∧
       (∀ n, f.isProbe = true → n = l.reported.getD l.hint →
         become .ack (l.Rejoining l.reported n)
           (Announced st .rejoining l.state 2 n (some n) ++ [.shownSetAsk st (l.askNo + 1)])) ∧
       (∀ code, code ≠ .ack → f.isProbe = true → l.state ≠ .live → l.state ≠ .rejoining →
         become code { l with inFlight := none, statusDue := none } [])))

/-- R144, R148, R145: in LIVE and REJOINING a frame handed over joins the outbox, or goes into flight at once on an idle link, and
an outbox that is full gives way to a refresh; a refresh empties the outbox and asks for the shown set, once; the answer to the
last ask puts CLEAR_ALL and the shown tickets in the outbox, the last with the rejoin mark while REJOINING; in the other states, or
while a refresh is awaited, frames and requests are dropped, and so is an answer to another ask. The record of the line and the
ask's number are the model's own (log entries 11 and 33). -/
def Obligations.OutboxAndRefresh : Prop :=
  ∀ (s : State) (st : StationId) (l : Link) (f : Frame) (cmd : Instr), l = s.link st → cmd = .frameHandover st f →
    ((l.state ≠ .live ∧ l.state ≠ .rejoining) ∨ l.refreshAwaited = true →
      exec cmd s = .next (s.taken cmd) ∧ exec (.refreshRequest st) s = .next (s.taken (.refreshRequest st))) ∧
    (l.state = .live ∨ l.state = .rejoining → l.refreshAwaited = false →
      (l.outbox.length < 16 → l.inFlight ≠ none → l.answers = [] → ∃ t, exec cmd s = .next t ∧
        LinkBecame st { l with outbox := l.outbox ++ [{ frame := f, rejoin := false }] } [] (s.taken cmd) t) ∧
      (l.outbox = [] → l.inFlight = none → l.answers = [] → ∃ t, exec cmd s = .next t ∧
        LinkBecame st { l with
          inFlight := some { frame := f, isProbe := false, rejoin := false, sent := false }, failures := 0, busies := 0
          statusDue := none, busyDue := none, wire := l.wire ++ [frameBytes f] } [] (s.taken cmd) t) ∧
      (16 ≤ l.outbox.length → ∃ t, exec cmd s = .next t ∧
        LinkBecame st { l with outbox := [], refreshAwaited := true, askNo := l.askNo + 1 } [.shownSetAsk st (l.askNo + 1)]
          (s.taken cmd) t) ∧
      (∃ t, exec (.refreshRequest st) s = .next t ∧
        LinkBecame st { l with outbox := [], refreshAwaited := true, askNo := l.askNo + 1 } [.shownSetAsk st (l.askNo + 1)]
          (s.taken (.refreshRequest st)) t)) ∧
    (∀ ask shows, l.refreshAwaited = false ∨ ask ≠ l.askNo →
      exec (.refreshAnswer st ask shows) s = .next (s.taken (.refreshAnswer st ask shows))) ∧
    (∀ shows rejoin answer, answer = .refreshAnswer st l.askNo shows → l.refreshAwaited = true → l.outbox = [] → l.answers = [] →
      ((l.state = .live ∧ rejoin = false) ∨ (l.state = .rejoining ∧ rejoin = true)) →
      (∀ g, l.inFlight = some g → ∃ t, exec answer s = .next t ∧
        LinkBecame st { l with
          refreshAwaited := false, inFlight := some { g with rejoin := g.rejoin && !rejoin }
          outbox := RefreshOf rejoin (.clearAll :: shows) } [] (s.taken answer) t) ∧
      (l.inFlight = none → ∀ e more, RefreshOf rejoin (.clearAll :: shows) = e :: more → ∃ t, exec answer s = .next t ∧
        LinkBecame st { l with
          refreshAwaited := false, failures := 0, busies := 0, statusDue := none, busyDue := none
          inFlight := some { frame := .clearAll, isProbe := false, rejoin := rejoin && shows.isEmpty, sent := false }
          outbox := more, wire := l.wire ++ [frameBytes .clearAll] } [] (s.taken answer) t))

/-- R145 to R147, R152, R153: when the frame in flight has left, its status timer is loaded with 40 ms; at that timer's expiry a
frame is sent again and at the second failure the link is DARK, while a probe just ends; a busy wait ends in a resend; the probe
timer is loaded again with 2 s and puts a PROBE in flight if none is. The record of the line is the model's own (log entry 11), and
an expiry moves the clock on to its due moment (log entry 6). -/
def Obligations.LinkTimersAndSentFrames : Prop :=
  ∀ (s : State) (st : StationId) (l : Link), l = s.link st → l.answers = [] →
    (∀ f, l.inFlight = some f → f.sent = false → ∃ t, exec (.frameSent st) s = .next t ∧
      LinkBecame st { l with inFlight := some { f with sent := true }, statusDue := some (s.uptime + 40) } []
        (s.taken (.frameSent st)) t) ∧
    (∀ f due x, l.inFlight = some f → f.sent = true → l.statusDue = some due →
      x = (s.taken (.statusTimerExpiry st)).advance (due - s.uptime) →
      (f.isProbe = false → l.failures = 0 → ∃ t, exec (.statusTimerExpiry st) s = .next t ∧
        LinkBecame st { l with
          failures := 1, busies := 0, inFlight := some { f with sent := false }, statusDue := none, busyDue := none
          wire := l.wire ++ [frameBytes f.frame] } [] x t) ∧
      (f.isProbe = false → l.failures ≠ 0 → ∃ t, exec (.statusTimerExpiry st) s = .next t ∧
        LinkBecame st (l.GoneDark x.uptime) (Announced st .dark l.state 4 l.count none) x t) ∧
      (f.isProbe = true → l.state ≠ .live → l.state ≠ .rejoining → ∃ t, exec (.statusTimerExpiry st) s = .next t ∧
        LinkBecame st { l with inFlight := none, statusDue := none } [] x t)) ∧
    (∀ f due, l.inFlight = some f → l.busyDue = some due → ∃ t, exec (.busyWaitExpiry st) s = .next t ∧
      LinkBecame st { l with
        inFlight := some { f with sent := false }, statusDue := none, busyDue := none
        wire := l.wire ++ [frameBytes f.frame] } [] ((s.taken (.busyWaitExpiry st)).advance (due - s.uptime)) t) ∧
    (∀ due x, l.probeDue = some due → x = (s.taken (.probeTimerExpiry st)).advance (due - s.uptime) →
      ∃ t, exec (.probeTimerExpiry st) s = .next t ∧
        (l.inFlight = none → LinkBecame st { l with
          probeDue := some (x.uptime + 2000), statusDue := none, busyDue := none
          inFlight := some { frame := .probe, isProbe := true, rejoin := false, sent := false }
          wire := l.wire ++ [frameBytes .probe] } [] x t) ∧
        (l.inFlight ≠ none → LinkBecame st { l with probeDue := some (x.uptime + 2000) } [] x t))

/-- R139, R140, R149, R209: a lead byte, any kind, a length of at most 64, a body of that length and any last byte, fed one by one
to a hunting receiver, end in the event of their kind (KEY, HELLO, STATUS, or a frame the part refuses), with the body and with
whether the last byte brings the sum to 0 modulo 256; so do frames of every kind that the part itself sends. Byte by byte: while
hunting all but a lead byte is discarded; while assembling a byte joins the frame, a length above 64 discards it, and the check
byte completes it; after a gap above 5 ms a byte is examined as a hunting byte, and the gap's timeout discards the frame so far.
R202, R204: a request read back from its slip's words is the request that was written. The model's: the gap is exceeded at the
sixth millisecond (log entry 28), and its timeout moves the clock on to that moment (log entry 6). -/
def Obligations.FramesAndSlipsAreReadAsWritten : Prop :=
  (∀ (s : State) (st : StationId) (kind last : Byte) (body : List Byte), (s.link st).receiver = .hunting → body.length ≤ 64 →
    (∀ b, .byteArrival st b ∉ s.handovers) →
    ∃ t, ranAll (([0xC3, kind, BitVec.ofNat 8 body.length] ++ body ++ [last]).map (.byteArrival st)) s = some t ∧
      (let ok := decide ((kind.toNat + body.length + (body.map BitVec.toNat).sum + last.toNat) % 256 = 0)
       LinkBecame st (s.link st)
        [if kind = 0x21 then .keyFrame st body ok else if kind = 0x22 then .hello st body ok
          else if kind = 0x20 then .status st body ok else .frameRejected st kind ok] s t)) ∧
  (∀ f : Frame, ∃ last, frameBytes f = [0xC3, f.kindCode, BitVec.ofNat 8 (frameBody f).length] ++ frameBody f ++ [last] ∧
    (f.kindCode.toNat + (frameBody f).length + ((frameBody f).map BitVec.toNat).sum + last.toNat) % 256 = 0) ∧
  (∀ (s : State) (st : StationId) (b : Byte),
    (let becomes := fun (r : Receiver) (more : List Instr) =>
      ∃ t, exec (.byteArrival st b) s = .next t ∧
        LinkBecame st { s.link st with receiver := r } more (s.taken (.byteArrival st b)) t
     ((s.link st).receiver = .hunting → b = 0xC3 → becomes (.assembling [] s.uptime) []) ∧
     ((s.link st).receiver = .hunting → b ≠ 0xC3 → becomes .hunting []) ∧
     (∀ bytes at_, (s.link st).receiver = .assembling bytes at_ →
      (at_ + 5 < s.uptime → b = 0xC3 → becomes (.assembling [] s.uptime) []) ∧
      (at_ + 5 < s.uptime → b ≠ 0xC3 → becomes .hunting []) ∧
      (s.uptime ≤ at_ + 5 →
        (bytes = [] → becomes (.assembling [b] s.uptime) []) ∧
        (∀ kind, bytes = [kind] → b.toNat ≤ 64 → becomes (.assembling [kind, b] s.uptime) []) ∧
        (∀ kind, bytes = [kind] → 64 < b.toNat → becomes .hunting []) ∧
        (∀ kind len body, bytes = kind :: len :: body → len.toNat ≤ 64 →
          (body.length < len.toNat → becomes (.assembling (bytes ++ [b]) s.uptime) []) ∧
          (body.length = len.toNat → becomes .hunting
            [frameEvent st kind body (decide ((kind.toNat + len.toNat + (body.map BitVec.toNat).sum + b.toNat) % 256 = 0))])))) ∧
      (∀ bytes at_, (s.link st).receiver = .assembling bytes at_ → ∃ t, exec (.receiveGapTimeout st) s = .next t ∧
        LinkBecame st { s.link st with receiver := .hunting } []
          ((s.taken (.receiveGapTimeout st)).advance (at_ + 6 - s.uptime)) t))) ∧
  (∀ (c : Instr) (kind : Byte) (r : Requester) (body : Body) (n : Nat), encodeRequest c = some (kind, r, body) →
    decodeRequest kind r (body ++ List.replicate n 0) = some c)

/-- R157, R156: SET_STATION with SUPERVISOR and operands in their ranges writes a link's fallback and hint; made active it goes
from OFFLINE to STARTING with its probe timer loaded, made inactive to OFFLINE with nothing left on it, and each change is
announced; a fallback to itself is refused RANGE. The answers that waited for the frame dropped with an inactive link are sent at
once (R145, log entry 11). That a change of state is announced before a change of fallback is the model's choice (log entry 61). -/
def Obligations.SetStationConfiguresALink : Prop :=
  ∀ (s : State) (r : Requester) (sw aw fw hw : Word) (st : StationId) (on : Bool) (fb : Option StationId) (l : Link) (cmd : Instr)
    (ready : List StatusCode) (rest : List (Option StatusCode)), l.answers = ready.map some ++ rest →
    (rest = [] ∨ ∃ more, rest = none :: more) →
    cmd = .setStation r sw aw fw hw → sw.toNat = st.val → l = s.link st → aw = (if on then 1 else 0) →
    ((fb = none ∧ fw = 0xFFFFFFFF) ∨ ∃ a, fb = some a ∧ fw.toNat = a.val) → 4 ≤ hw.toNat → hw.toNat ≤ 8 →
    (r.authority = .staff → ∃ t, exec cmd s = .next t ∧ RefusedWith cmd .authority none s t) ∧
    (r.authority = .supervisor →
      (fb = some st → ∃ t, exec cmd s = .next t ∧ RefusedWith cmd .range none s t) ∧
      (fb ≠ some st →
        (let written : Link := { l with active := on, fallback := fb, hint := hw.toNat }
         let l1 : Link :=
           if on = true ∧ l.active = false then
             { written with state := .starting, count := hw.toNat, reported := none, probeDue := some (s.uptime + 2000) }
           else if on = false ∧ l.active = true then
             { written with
               state := .offline, inFlight := none, outbox := [], refreshAwaited := false, failures := 0, busies := 0
               statusDue := none, busyDue := none, probeDue := none, receiver := .hunting, answers := rest
               wire := l.wire ++ ready.map (fun code => frameBytes (.status code)) }
           else written
         ∃ t, exec cmd s = .next t ∧ DoneWith [Word.ofCount l1.state.code] s t ∧ t.link st = l1 ∧
           (∀ a, a ≠ st → t.link a = s.link a) ∧
           t = { s.taken cmd with
             exu := t.exu, slc := t.slc
             handovers := (s.taken cmd).handovers ++
               (if l1.state = l.state then [] else Announced st l1.state l.state 0 l1.count none) ++
               (if fb = l.fallback then [] else [.fallbackChangeTkr st, .gateTest]) })))

/-! ### Demand Watch (R159 to R175) -/

/-- R160, R164, R161 to R163, R166 to R168, R175: a firing's quantity is added to the counts of its stand and slot, up to 65,535,
and a void's taken off, down to 0; a change of pairing sets a slot's figures to 0; at the sample expiry every slot's and stand's
period is closed, a pending period takes force and each change of level is announced; the day close starts the figures afresh. The
model's choices: the expiry moves the clock on to the due moment (log entry 6), and the changes of several stands are announced
from stand 0 to 15, each by its notice, the router and ISU (log entry 62). An inference (log entry 69): the day's first period is
counted from the moment Demand Watch takes the day close. -/
def Obligations.DemandIsCountedAndSampled : Prop :=
  ∀ s : State,
    (∀ (n : StandId) (slot : Option SlotId) (q : Nat),
      (let counted := fun (f : Filter → Filter) (t : State) =>
        t.pace n = { s.pace n with filter := f (s.pace n).filter } ∧ (∀ m, m ≠ n → t.pace m = s.pace m) ∧
        (∀ b, t.demand b = if slot = some b then f (s.demand b) else s.demand b)
       (∃ t, exec (.countAdd n slot q) s = .next t ∧ counted (fun f => { f with count := min 65535 (f.count + q) }) t ∧
         t = { s.taken (.countAdd n slot q) with dmw := { s.dmw with paces := t.dmw.paces, filters := t.dmw.filters } }) ∧
       (∃ t, exec (.countTake n slot q) s = .next t ∧ counted (fun f => { f with count := f.count - q }) t ∧
         t = { s.taken (.countTake n slot q) with dmw := { s.dmw with paces := t.dmw.paces, filters := t.dmw.filters } }))) ∧
    (∀ b, ∃ t, exec (.pairingChange b) s = .next t ∧ t.demand b = { count := 0, fast := 0, slow := 0 } ∧
      (∀ a, a ≠ b → t.demand a = s.demand a) ∧
      t = { s.taken (.pairingChange b) with dmw := { s.dmw with filters := t.dmw.filters } }) ∧
    (∃ t x, exec .sampleTimerExpiry s = .next t ∧ x = (s.taken .sampleTimerExpiry).advance (s.dmw.sampleDue - s.uptime) ∧
      (∀ b, (let home := s.pace (s.batch b).home
        let fast := Moved (s.demand b).fast (16 * (s.demand b).count) home.kF
        t.demand b = { count := 0, fast := fast, slow := Moved (s.demand b).slow fast home.kL })) ∧
      (∀ n, t.pace n = if s.dmw.pendingPeriod = none then PaceAfter (s.pace n) s.dmw.period
        else { PaceAfter (s.pace n) s.dmw.period with quiet := 0 }) ∧
      t.dmw.period = s.dmw.pendingPeriod.getD s.dmw.period ∧ t.dmw.pendingPeriod = none ∧
      t.dmw.sampleDue = x.uptime + t.dmw.period * 1000 ∧
      t = { x with
        dmw := t.dmw
        handovers := x.handovers ++ (List.finRange 16).flatMap (fun n =>
          let p := PaceAfter (s.pace n) s.dmw.period
          if p.level = (s.pace n).level then []
          else LevelAnnounced n p (s.pace n).level (if (s.pace n).level.code < p.level.code then 0 else 1)) }) ∧
    (∃ t, exec .dmwDayClose s = .next t ∧ (∀ b, t.demand b = { count := 0, fast := 0, slow := 0 }) ∧
      (∀ n, t.pace n = { s.pace n with
        filter := {}, level := .normal, opening := .normal, quiet := 0, halt := 0, forced := false }) ∧
      t.dmw.period = s.dmw.pendingPeriod.getD s.dmw.period ∧ t.dmw.pendingPeriod = none ∧
      t.dmw.sampleDue = s.uptime + t.dmw.period * 1000 ∧ t = { s.taken .dmwDayClose with dmw := t.dmw })

/-- R169 to R172: SET_PACE, with SUPERVISOR, makes a period pending, writes a stand's levels where the thresholds stand in their
order, writes its times and tells the router where those in force changed, and forces or releases its level, announcing a change;
an operand of any section out of its range, thresholds out of their order, and a stand above 15 are refused RANGE. The announcement
brings the values in force when it is made (R174, log entry 19). That LEVELS and TIMES give no result words is an inference of the
model (log entry 31). -/
def Obligations.SetPaceSections : Prop :=
  ∀ (s : State) (r : Requester) (w1 w2 w3 w4 w5 w6 w7 w8 w9 : Word),
    (let cmd := fun (sect : Word) => Instr.setPace r sect w1 w2 w3 w4 w5 w6 w7 w8 w9
     (r.authority = .staff → ∀ sect, ∃ t, exec (cmd sect) s = .next t ∧ RefusedWith (cmd sect) .authority none s t) ∧
     (r.authority = .supervisor →
      (∀ sect : Word, 4 ≤ sect.toNat → ∃ t, exec (cmd sect) s = .next t ∧ RefusedWith (cmd sect) .range none s t) ∧
      (5 ≤ w1.toNat ∧ w1.toNat ≤ 60 → exec (cmd 0) s = .next { s.taken (cmd 0) with
        dmw := { s.dmw with pendingPeriod := if w1.toNat = s.dmw.period then none else some w1.toNat }
        exu := { s.exu with answer := some (.done
          [Word.ofCount s.dmw.period, if w1.toNat = s.dmw.period then 0 else w1]) } }) ∧
      (w1.toNat < 5 ∨ 60 < w1.toNat → ∃ t, exec (cmd 0) s = .next t ∧ RefusedWith (cmd 0) .range none s t) ∧
      (15 < w1.toNat → ∀ sect : Word, 1 ≤ sect.toNat → ∃ t, exec (cmd sect) s = .next t ∧ RefusedWith (cmd sect) .range none s t) ∧
      (∀ n : StandId, w1.toNat = n.val →
        (let became := fun (sect : Word) (p : Pace) (ws : List Word) (more : List Instr) =>
          ∃ t, exec (cmd sect) s = .next t ∧ DoneWith ws s t ∧ t.pace n = p ∧ (∀ m, m ≠ n → t.pace m = s.pace m) ∧
            t = { s.taken (cmd sect) with
              exu := t.exu, dmw := { s.dmw with paces := t.dmw.paces }, handovers := (s.taken (cmd sect)).handovers ++ more }
         let refused := fun (sect : Word) => ∃ t, exec (cmd sect) s = .next t ∧ RefusedWith (cmd sect) .range none s t
         let levels := 10 ≤ w6.toNat ∧ w6.toNat ≤ 600 ∧ 1 ≤ w7.toNat ∧ w7.toNat ≤ 360 ∧ w8.toNat ≤ 4 ∧ 4 ≤ w9.toNat ∧ w9.toNat ≤ 8 ∧
           w3.toNat < w2.toNat ∧ w2.toNat ≤ w5.toNat ∧ w5.toNat < w4.toNat ∧ w4.toNat ≤ 1048560
         let times := 5 ≤ w2.toNat ∧ w2.toNat ≤ 120 ∧ 5 ≤ w3.toNat ∧ w3.toNat ≤ 120 ∧ 5 ≤ w4.toNat ∧ w4.toNat ≤ 120 ∧
           60 ≤ w5.toNat ∧ w5.toNat ≤ 1800 ∧ 60 ≤ w6.toNat ∧ w6.toNat ≤ 1800 ∧ 60 ≤ w7.toNat ∧ w7.toNat ≤ 1800
         (¬ levels → refused 1) ∧ (¬ times → refused 2) ∧ (4 ≤ w2.toNat → refused 3) ∧
         (levels →
           became 1 { s.pace n with
             busyOn := w2.toNat, busyOff := w3.toNat, rushOn := w4.toNat, rushOff := w5.toNat, dwell := w6.toNat
             haltLimit := w7.toNat, kF := w8.toNat, kL := w9.toNat } [] []) ∧
         (times →
           became 2 { s.pace n with
             focusNormal := w2.toNat, focusBusy := w3.toNat, focusRush := w4.toNat, lateNormal := w5.toNat
             lateBusy := w6.toNat, lateRush := w7.toNat } []
             (let p := s.pace n
              if (p.level = .normal ∧ w2.toNat = p.focusNormal ∧ w5.toNat = p.lateNormal) ∨
                (p.level = .busy ∧ w3.toNat = p.focusBusy ∧ w6.toNat = p.lateBusy) ∨
                (p.level = .rush ∧ w4.toNat = p.focusRush ∧ w7.toNat = p.lateRush) then []
              else
                let new : Pace := { p with
                  focusNormal := w2.toNat, focusBusy := w3.toNat, focusRush := w4.toNat, lateNormal := w5.toNat
                  lateBusy := w6.toNat, lateRush := w7.toNat }
                [.paceChangeTkr n ⟨p.level, FocusInForce new, LateInForce new⟩])) ∧
         (∀ lv : Level, w2 = BitVec.ofNat 32 lv.code →
           became 3 { s.pace n with forced := true, quiet := 0, level := lv } [Word.ofCount lv.code, 1]
             (if lv = (s.pace n).level then []
              else LevelAnnounced n { s.pace n with level := lv } (s.pace n).level 2)) ∧
         (w2 = 3 → became 3 (if (s.pace n).forced then { s.pace n with forced := false, quiet := 0 } else s.pace n)
           [Word.ofCount (s.pace n).level.code, 0] [])))))

/-! ### The invariants that every step keeps -/

/-- R176, R178, R179, R183, R192, R196, R199: every step keeps host memory canonical, the chain list and the notice buffer within
their capacities, RUN to a region that is set, the base aligned, and the notice line raised exactly while the window is open. -/
def Obligations.EveryStepKeepsTheExchange : Prop := ∀ s t : State, ExchangeOk s → step s = .next t → ExchangeOk t

/-- R66, R68, R70, R78: every step keeps reserved at most on-hand, pairings that name each other, batch items untracked, and
warmers within their lots and their capacity. -/
def Obligations.EveryStepKeepsStockAndWarmers : Prop := ∀ s t : State, StockOk s → step s = .next t → StockOk t

/-- R6, R10, R14, R27, R34, R50, R56, R58: every step keeps the holding of checks, the closed and exported lists, and the money of
every check: its rows, its tenders and its state agree; at most 8,192 line records are in use (R12), and the check table lists each
slot once, in order. Where every CLOSED check is on the closed list and every EXPORTED one on the exported list (R27), so it is
after the step. -/
def Obligations.EveryStepKeepsHoldingAndMoney : Prop :=
  ∀ s t : State, HoldingOk s → MoneyOk s → step s = .next t → HoldingOk t ∧ MoneyOk t ∧ (EndedListed s → EndedListed t)

/-- R97, R98, R117 to R119: every step keeps each ticket in the one collection of its station that its state names, the shown set
in slot order and the waiting queue in key order, and no two shown tickets of a station in one slot. Key order goes by the moment
of the fire time (log entry 57). -/
def Obligations.EveryStepKeepsTheStationQueues : Prop := ∀ s t : State, QueuesOk s → step s = .next t → QueuesOk t
end

