-- ==== Sys2Proof/Laws/Tables.lean ====
section
/-! SUPPORT. Tables: what a read finds after a write, and that a write keeps the canonical form. -/

namespace Sys2Proof.Machine

variable {α : Type}

theorem Table.read_put_same (d : α) (t : Table α) (k : Nat) (v : α) : Table.read d (Table.put t k v) k = v := by
  induction t with
  | nil => simp [Table.put, Table.read]
  | cons e t ih =>
    obtain ⟨j, w⟩ := e
    simp only [Table.put]
    split
    · simp [Table.read]
    · split
      · simp [Table.read]
      · rename_i h; simp [Table.read, h, ih]

theorem Table.read_put_other (d : α) (t : Table α) {k m : Nat} (v : α) (h : m ≠ k) :
    Table.read d (Table.put t k v) m = Table.read d t m := by
  induction t with
  | nil => simp [Table.put, Table.read, h]
  | cons e t ih =>
    obtain ⟨j, w⟩ := e
    simp only [Table.put]
    split
    · simp [Table.read, h]
    · split
      · rename_i hk; subst hk; simp [Table.read, h]
      · simp only [Table.read, ih]

theorem Table.drop_cons_same (t : Table α) (k : Nat) (w : α) : Table.drop ((k, w) :: t) k = Table.drop t k := by
  simp [Table.drop]

theorem Table.drop_cons_other (t : Table α) {j k : Nat} (w : α) (h : j ≠ k) :
    Table.drop ((j, w) :: t) k = (j, w) :: Table.drop t k := by
  simp [Table.drop, h]

theorem Table.read_drop_same (d : α) (t : Table α) (k : Nat) : Table.read d (Table.drop t k) k = d := by
  induction t with
  | nil => rfl
  | cons e t ih =>
    obtain ⟨j, w⟩ := e
    by_cases h : j = k
    · subst h; rw [Table.drop_cons_same, ih]
    · rw [Table.drop_cons_other t w h, Table.read, if_neg (fun x => h x.symm), ih]

theorem Table.read_drop_other (d : α) (t : Table α) {k m : Nat} (h : m ≠ k) :
    Table.read d (Table.drop t k) m = Table.read d t m := by
  induction t with
  | nil => rfl
  | cons e t ih =>
    obtain ⟨j, w⟩ := e
    by_cases hj : j = k
    · subst hj; rw [Table.drop_cons_same, ih, Table.read, if_neg h]
    · rw [Table.drop_cons_other t w hj, Table.read, Table.read, ih]

@[simp] theorem Table.read_nil (d : α) (k : Nat) : Table.read d [] k = d := rfl

variable [DecidableEq α]

/-- A read of the record written finds it. -/
@[simp] theorem Table.read_write_same (d : α) (t : Table α) (k : Nat) (v : α) :
    Table.read d (Table.write d t k v) k = v := by
  unfold Table.write
  split
  · rename_i h; rw [Table.read_drop_same, h]
  · exact Table.read_put_same d t k v

/-- A read of another record finds what it found before. -/
theorem Table.read_write_other (d : α) (t : Table α) {k m : Nat} (v : α) (h : m ≠ k) :
    Table.read d (Table.write d t k v) m = Table.read d t m := by
  unfold Table.write
  split
  · exact Table.read_drop_other d t h
  · exact Table.read_put_other d t v h

/-- A read after a write, in one formula. -/
theorem Table.read_write (d : α) (t : Table α) (k m : Nat) (v : α) :
    Table.read d (Table.write d t k v) m = if m = k then v else Table.read d t m := by
  split
  · rename_i h; subst h; simp
  · rename_i h; exact Table.read_write_other d t v h

/-! ### The canonical form -/

omit [DecidableEq α] in
theorem Table.risingFrom_weaken {t : Table α} {j k : Nat} (h : Table.risingFrom k t = true) (hj : j ≤ k) :
    Table.risingFrom j t = true := by
  cases t with
  | nil => rfl
  | cons e t =>
    simp only [Table.risingFrom, Bool.and_eq_true, decide_eq_true_eq] at *
    exact ⟨by omega, h.2⟩

omit [DecidableEq α] in
theorem Table.risingFrom_put {t : Table α} {j k : Nat} (v : α) (h : Table.risingFrom j t = true) (hk : j < k) :
    Table.risingFrom j (Table.put t k v) = true := by
  induction t generalizing j with
  | nil => simp [Table.put, Table.risingFrom, hk]
  | cons e t ih =>
    obtain ⟨i, w⟩ := e
    simp only [Table.risingFrom, Bool.and_eq_true, decide_eq_true_eq] at h
    simp only [Table.put]
    split
    · simp [Table.risingFrom, *]
    · split
      · simp only [Table.risingFrom, Bool.and_eq_true, decide_eq_true_eq]; rename_i hki; exact ⟨by omega, hki ▸ h.2⟩
      · simp only [Table.risingFrom, Bool.and_eq_true, decide_eq_true_eq]; exact ⟨h.1, ih h.2 (by omega)⟩

omit [DecidableEq α] in
theorem Table.rising_put {t : Table α} {k : Nat} (v : α) (h : Table.rising t = true) : Table.rising (Table.put t k v) = true := by
  cases t with
  | nil => simp [Table.put, Table.rising, Table.risingFrom]
  | cons e t =>
    obtain ⟨i, w⟩ := e
    simp only [Table.rising] at h
    simp only [Table.put]
    split
    · simp [Table.rising, Table.risingFrom, *]
    · split
      · rename_i hki; simpa [Table.rising, hki] using h
      · simp only [Table.rising]; exact Table.risingFrom_put v h (by omega)

omit [DecidableEq α] in
theorem Table.risingFrom_drop {t : Table α} {j k : Nat} (h : Table.risingFrom j t = true) :
    Table.risingFrom j (Table.drop t k) = true := by
  induction t generalizing j with
  | nil => rfl
  | cons e t ih =>
    obtain ⟨i, w⟩ := e
    simp only [Table.risingFrom, Bool.and_eq_true, decide_eq_true_eq] at h
    simp only [Table.drop, List.filter_cons] at *
    split
    · simp only [Table.risingFrom, Bool.and_eq_true, decide_eq_true_eq]; exact ⟨h.1, ih h.2⟩
    · exact Table.risingFrom_weaken (ih h.2) (by omega)

omit [DecidableEq α] in
theorem Table.rising_drop {t : Table α} {k : Nat} (h : Table.rising t = true) : Table.rising (Table.drop t k) = true := by
  cases t with
  | nil => rfl
  | cons e t =>
    obtain ⟨i, w⟩ := e
    simp only [Table.rising] at h
    have hd := Table.risingFrom_drop (k := k) h
    simp only [Table.drop, List.filter_cons] at *
    split
    · exact hd
    · cases hc : List.filter (fun e => decide (e.1 ≠ k)) t with
      | nil => rfl
      | cons f l =>
        rw [hc] at hd
        simp only [Table.risingFrom, Bool.and_eq_true] at hd
        exact hd.2

omit [DecidableEq α] in
theorem Table.mem_put {t : Table α} {k : Nat} {v : α} {e : Nat × α} (h : e ∈ Table.put t k v) : e = (k, v) ∨ e ∈ t := by
  induction t with
  | nil => simpa [Table.put] using h
  | cons f t ih =>
    obtain ⟨j, w⟩ := f
    simp only [Table.put] at h
    split at h
    · simpa using h
    · split at h
      · rcases List.mem_cons.1 h with h | h
        · exact .inl h
        · exact .inr (List.mem_cons_of_mem _ h)
      · rcases List.mem_cons.1 h with h | h
        · exact .inr (h ▸ List.mem_cons_self)
        · rcases ih h with h | h
          · exact .inl h
          · exact .inr (List.mem_cons_of_mem _ h)

/-- A write keeps the canonical form. -/
theorem Table.wf_write {d : α} {t : Table α} (k : Nat) (v : α) (h : Table.wf d t = true) :
    Table.wf d (Table.write d t k v) = true := by
  simp only [Table.wf, Bool.and_eq_true, List.all_eq_true, decide_eq_true_eq] at *
  unfold Table.write
  split
  · exact ⟨Table.rising_drop h.1, fun e he => h.2 e (List.mem_filter.1 he).1⟩
  · refine ⟨Table.rising_put v h.1, fun e he => ?_⟩
    rcases Table.mem_put he with rfl | he
    · assumption
    · exact h.2 e he

/-- What is read of a table whose listed records are changed one by one. -/
theorem Table.read_foldl_write (d : α) (f : Nat → α) (l r : Table α) (k : Nat) :
    Table.read d (l.foldl (fun r e => Table.write d r e.1 (f e.1)) r) k = if k ∈ l.map Prod.fst then f k else Table.read d r k := by
  induction l generalizing r with
  | nil => simp
  | cons e l ih =>
    rw [List.foldl_cons, ih, Table.read_write]
    have hk : k ∈ (e :: l).map Prod.fst ↔ k = e.1 ∨ k ∈ l.map Prod.fst := List.mem_cons
    by_cases h : k = e.1
    · rw [if_pos (hk.2 (.inl h)), if_pos h, h, ite_self]
    · simp only [hk, h, false_or, if_false]

omit [DecidableEq α] in
/-- A number that a table does not list reads as the default. -/
theorem Table.read_not_listed (d : α) {t : Table α} {k : Nat} (h : k ∉ t.map Prod.fst) : Table.read d t k = d := by
  induction t with
  | nil => rfl
  | cons e t ih =>
    simp only [List.map_cons, List.mem_cons, not_or] at h
    rw [Table.read, if_neg h.1, ih h.2]

/-- Every record of a table changed by a function that keeps the default. -/
theorem Table.read_mapRecords {d : α} {f : α → α} (hf : f d = d) (t : Table α) (k : Nat) :
    Table.read d (Table.mapRecords d f t) k = f (Table.read d t k) := by
  rw [Table.mapRecords, Table.read_foldl_write d (fun j => f (Table.read d t j))]
  split
  · rfl
  · rename_i h
    rw [Table.read_nil, Table.read_not_listed d h, hf]

/-- Changing every record keeps the canonical form. -/
theorem Table.wf_mapRecords (d : α) (f : α → α) (t : Table α) : Table.wf d (Table.mapRecords d f t) = true := by
  have h : ∀ (l r : Table α), Table.wf d r = true →
      Table.wf d (l.foldl (fun r e => Table.write d r e.1 (f (Table.read d t e.1))) r) = true := by
    intro l
    induction l with
    | nil => exact fun r h => h
    | cons e l ih => exact fun r h => ih _ (Table.wf_write _ _ h)
  exact h t [] rfl

end Sys2Proof.Machine
end

