-- ==== Sys2Proof/Laws/State.lean ====
section
/-! SUPPORT. The state's small lemmas: one for each field and each update of a record, true by rfl, and what the accessors of
records find after an update. -/

namespace Sys2Proof.Machine

/-! ### Fields -/

@[simp] theorem State.setStand_uptime (s : State) (n : StandId) (v : Stand) : (s.setStand n v).uptime = s.uptime := rfl
@[simp] theorem State.setStand_exu (s : State) (n : StandId) (v : Stand) : (s.setStand n v).exu = s.exu := rfl
@[simp] theorem State.setStand_ntc (s : State) (n : StandId) (v : Stand) : (s.setStand n v).ntc = s.ntc := rfl
@[simp] theorem State.setStand_isu (s : State) (n : StandId) (v : Stand) : (s.setStand n v).isu = s.isu := rfl
@[simp] theorem State.setStand_tkr (s : State) (n : StandId) (v : Stand) : (s.setStand n v).tkr = s.tkr := rfl
@[simp] theorem State.setStand_slc (s : State) (n : StandId) (v : Stand) : (s.setStand n v).slc = s.slc := rfl
@[simp] theorem State.setStand_dmw (s : State) (n : StandId) (v : Stand) : (s.setStand n v).dmw = s.dmw := rfl
@[simp] theorem State.setStand_mem (s : State) (n : StandId) (v : Stand) : (s.setStand n v).mem = s.mem := rfl
@[simp] theorem State.setStand_askAnswer (s : State) (n : StandId) (v : Stand) : (s.setStand n v).askAnswer = s.askAnswer := rfl
@[simp] theorem State.setStand_freeValues (s : State) (n : StandId) (v : Stand) : (s.setStand n v).freeValues = s.freeValues := rfl
@[simp] theorem State.setStand_handovers (s : State) (n : StandId) (v : Stand) : (s.setStand n v).handovers = s.handovers := rfl
@[simp] theorem State.setStand_pending (s : State) (n : StandId) (v : Stand) : (s.setStand n v).pending = s.pending := rfl

@[simp] theorem State.setTill_uptime (s : State) (n : Nat) (v : Till) : (s.setTill n v).uptime = s.uptime := rfl
@[simp] theorem State.setTill_exu (s : State) (n : Nat) (v : Till) : (s.setTill n v).exu = s.exu := rfl
@[simp] theorem State.setTill_ntc (s : State) (n : Nat) (v : Till) : (s.setTill n v).ntc = s.ntc := rfl
@[simp] theorem State.setTill_isu (s : State) (n : Nat) (v : Till) : (s.setTill n v).isu = s.isu := rfl
@[simp] theorem State.setTill_tkr (s : State) (n : Nat) (v : Till) : (s.setTill n v).tkr = s.tkr := rfl
@[simp] theorem State.setTill_slc (s : State) (n : Nat) (v : Till) : (s.setTill n v).slc = s.slc := rfl
@[simp] theorem State.setTill_dmw (s : State) (n : Nat) (v : Till) : (s.setTill n v).dmw = s.dmw := rfl
@[simp] theorem State.setTill_mem (s : State) (n : Nat) (v : Till) : (s.setTill n v).mem = s.mem := rfl
@[simp] theorem State.setTill_askAnswer (s : State) (n : Nat) (v : Till) : (s.setTill n v).askAnswer = s.askAnswer := rfl
@[simp] theorem State.setTill_freeValues (s : State) (n : Nat) (v : Till) : (s.setTill n v).freeValues = s.freeValues := rfl
@[simp] theorem State.setTill_handovers (s : State) (n : Nat) (v : Till) : (s.setTill n v).handovers = s.handovers := rfl
@[simp] theorem State.setTill_pending (s : State) (n : Nat) (v : Till) : (s.setTill n v).pending = s.pending := rfl

@[simp] theorem State.setCheckSlot_uptime (s : State) (n : BitVec 10) (v : CheckSlot) : (s.setCheckSlot n v).uptime = s.uptime := rfl
@[simp] theorem State.setCheckSlot_exu (s : State) (n : BitVec 10) (v : CheckSlot) : (s.setCheckSlot n v).exu = s.exu := rfl
@[simp] theorem State.setCheckSlot_ntc (s : State) (n : BitVec 10) (v : CheckSlot) : (s.setCheckSlot n v).ntc = s.ntc := rfl
@[simp] theorem State.setCheckSlot_isu (s : State) (n : BitVec 10) (v : CheckSlot) : (s.setCheckSlot n v).isu = s.isu := rfl
@[simp] theorem State.setCheckSlot_tkr (s : State) (n : BitVec 10) (v : CheckSlot) : (s.setCheckSlot n v).tkr = s.tkr := rfl
@[simp] theorem State.setCheckSlot_slc (s : State) (n : BitVec 10) (v : CheckSlot) : (s.setCheckSlot n v).slc = s.slc := rfl
@[simp] theorem State.setCheckSlot_dmw (s : State) (n : BitVec 10) (v : CheckSlot) : (s.setCheckSlot n v).dmw = s.dmw := rfl
@[simp] theorem State.setCheckSlot_mem (s : State) (n : BitVec 10) (v : CheckSlot) : (s.setCheckSlot n v).mem = s.mem := rfl
@[simp] theorem State.setCheckSlot_askAnswer (s : State) (n : BitVec 10) (v : CheckSlot) : (s.setCheckSlot n v).askAnswer = s.askAnswer := rfl
@[simp] theorem State.setCheckSlot_freeValues (s : State) (n : BitVec 10) (v : CheckSlot) : (s.setCheckSlot n v).freeValues = s.freeValues := rfl
@[simp] theorem State.setCheckSlot_handovers (s : State) (n : BitVec 10) (v : CheckSlot) : (s.setCheckSlot n v).handovers = s.handovers := rfl
@[simp] theorem State.setCheckSlot_pending (s : State) (n : BitVec 10) (v : CheckSlot) : (s.setCheckSlot n v).pending = s.pending := rfl

@[simp] theorem State.setCheck_uptime (s : State) (n : Handle) (v : Check) : (s.setCheck n v).uptime = s.uptime := rfl
@[simp] theorem State.setCheck_exu (s : State) (n : Handle) (v : Check) : (s.setCheck n v).exu = s.exu := rfl
@[simp] theorem State.setCheck_ntc (s : State) (n : Handle) (v : Check) : (s.setCheck n v).ntc = s.ntc := rfl
@[simp] theorem State.setCheck_isu (s : State) (n : Handle) (v : Check) : (s.setCheck n v).isu = s.isu := rfl
@[simp] theorem State.setCheck_tkr (s : State) (n : Handle) (v : Check) : (s.setCheck n v).tkr = s.tkr := rfl
@[simp] theorem State.setCheck_slc (s : State) (n : Handle) (v : Check) : (s.setCheck n v).slc = s.slc := rfl
@[simp] theorem State.setCheck_dmw (s : State) (n : Handle) (v : Check) : (s.setCheck n v).dmw = s.dmw := rfl
@[simp] theorem State.setCheck_mem (s : State) (n : Handle) (v : Check) : (s.setCheck n v).mem = s.mem := rfl
@[simp] theorem State.setCheck_askAnswer (s : State) (n : Handle) (v : Check) : (s.setCheck n v).askAnswer = s.askAnswer := rfl
@[simp] theorem State.setCheck_freeValues (s : State) (n : Handle) (v : Check) : (s.setCheck n v).freeValues = s.freeValues := rfl
@[simp] theorem State.setCheck_handovers (s : State) (n : Handle) (v : Check) : (s.setCheck n v).handovers = s.handovers := rfl
@[simp] theorem State.setCheck_pending (s : State) (n : Handle) (v : Check) : (s.setCheck n v).pending = s.pending := rfl

@[simp] theorem State.freeSlot_uptime (s : State) (n : Handle) : (s.freeSlot n).uptime = s.uptime := rfl
@[simp] theorem State.freeSlot_exu (s : State) (n : Handle) : (s.freeSlot n).exu = s.exu := rfl
@[simp] theorem State.freeSlot_ntc (s : State) (n : Handle) : (s.freeSlot n).ntc = s.ntc := rfl
@[simp] theorem State.freeSlot_isu (s : State) (n : Handle) : (s.freeSlot n).isu = s.isu := rfl
@[simp] theorem State.freeSlot_tkr (s : State) (n : Handle) : (s.freeSlot n).tkr = s.tkr := rfl
@[simp] theorem State.freeSlot_slc (s : State) (n : Handle) : (s.freeSlot n).slc = s.slc := rfl
@[simp] theorem State.freeSlot_dmw (s : State) (n : Handle) : (s.freeSlot n).dmw = s.dmw := rfl
@[simp] theorem State.freeSlot_mem (s : State) (n : Handle) : (s.freeSlot n).mem = s.mem := rfl
@[simp] theorem State.freeSlot_askAnswer (s : State) (n : Handle) : (s.freeSlot n).askAnswer = s.askAnswer := rfl
@[simp] theorem State.freeSlot_freeValues (s : State) (n : Handle) : (s.freeSlot n).freeValues = s.freeValues := rfl
@[simp] theorem State.freeSlot_handovers (s : State) (n : Handle) : (s.freeSlot n).handovers = s.handovers := rfl
@[simp] theorem State.freeSlot_pending (s : State) (n : Handle) : (s.freeSlot n).pending = s.pending := rfl

@[simp] theorem State.setItem_uptime (s : State) (n : ItemId) (v : Item) : (s.setItem n v).uptime = s.uptime := rfl
@[simp] theorem State.setItem_exu (s : State) (n : ItemId) (v : Item) : (s.setItem n v).exu = s.exu := rfl
@[simp] theorem State.setItem_ntc (s : State) (n : ItemId) (v : Item) : (s.setItem n v).ntc = s.ntc := rfl
@[simp] theorem State.setItem_cks (s : State) (n : ItemId) (v : Item) : (s.setItem n v).cks = s.cks := rfl
@[simp] theorem State.setItem_tkr (s : State) (n : ItemId) (v : Item) : (s.setItem n v).tkr = s.tkr := rfl
@[simp] theorem State.setItem_slc (s : State) (n : ItemId) (v : Item) : (s.setItem n v).slc = s.slc := rfl
@[simp] theorem State.setItem_dmw (s : State) (n : ItemId) (v : Item) : (s.setItem n v).dmw = s.dmw := rfl
@[simp] theorem State.setItem_mem (s : State) (n : ItemId) (v : Item) : (s.setItem n v).mem = s.mem := rfl
@[simp] theorem State.setItem_askAnswer (s : State) (n : ItemId) (v : Item) : (s.setItem n v).askAnswer = s.askAnswer := rfl
@[simp] theorem State.setItem_freeValues (s : State) (n : ItemId) (v : Item) : (s.setItem n v).freeValues = s.freeValues := rfl
@[simp] theorem State.setItem_handovers (s : State) (n : ItemId) (v : Item) : (s.setItem n v).handovers = s.handovers := rfl
@[simp] theorem State.setItem_pending (s : State) (n : ItemId) (v : Item) : (s.setItem n v).pending = s.pending := rfl

@[simp] theorem State.setBatch_uptime (s : State) (n : SlotId) (v : Batch) : (s.setBatch n v).uptime = s.uptime := rfl
@[simp] theorem State.setBatch_exu (s : State) (n : SlotId) (v : Batch) : (s.setBatch n v).exu = s.exu := rfl
@[simp] theorem State.setBatch_ntc (s : State) (n : SlotId) (v : Batch) : (s.setBatch n v).ntc = s.ntc := rfl
@[simp] theorem State.setBatch_cks (s : State) (n : SlotId) (v : Batch) : (s.setBatch n v).cks = s.cks := rfl
@[simp] theorem State.setBatch_tkr (s : State) (n : SlotId) (v : Batch) : (s.setBatch n v).tkr = s.tkr := rfl
@[simp] theorem State.setBatch_slc (s : State) (n : SlotId) (v : Batch) : (s.setBatch n v).slc = s.slc := rfl
@[simp] theorem State.setBatch_dmw (s : State) (n : SlotId) (v : Batch) : (s.setBatch n v).dmw = s.dmw := rfl
@[simp] theorem State.setBatch_mem (s : State) (n : SlotId) (v : Batch) : (s.setBatch n v).mem = s.mem := rfl
@[simp] theorem State.setBatch_askAnswer (s : State) (n : SlotId) (v : Batch) : (s.setBatch n v).askAnswer = s.askAnswer := rfl
@[simp] theorem State.setBatch_freeValues (s : State) (n : SlotId) (v : Batch) : (s.setBatch n v).freeValues = s.freeValues := rfl
@[simp] theorem State.setBatch_handovers (s : State) (n : SlotId) (v : Batch) : (s.setBatch n v).handovers = s.handovers := rfl
@[simp] theorem State.setBatch_pending (s : State) (n : SlotId) (v : Batch) : (s.setBatch n v).pending = s.pending := rfl

@[simp] theorem State.setFactor_uptime (s : State) (n : StandId) (v : Level) : (s.setFactor n v).uptime = s.uptime := rfl
@[simp] theorem State.setFactor_exu (s : State) (n : StandId) (v : Level) : (s.setFactor n v).exu = s.exu := rfl
@[simp] theorem State.setFactor_ntc (s : State) (n : StandId) (v : Level) : (s.setFactor n v).ntc = s.ntc := rfl
@[simp] theorem State.setFactor_cks (s : State) (n : StandId) (v : Level) : (s.setFactor n v).cks = s.cks := rfl
@[simp] theorem State.setFactor_tkr (s : State) (n : StandId) (v : Level) : (s.setFactor n v).tkr = s.tkr := rfl
@[simp] theorem State.setFactor_slc (s : State) (n : StandId) (v : Level) : (s.setFactor n v).slc = s.slc := rfl
@[simp] theorem State.setFactor_dmw (s : State) (n : StandId) (v : Level) : (s.setFactor n v).dmw = s.dmw := rfl
@[simp] theorem State.setFactor_mem (s : State) (n : StandId) (v : Level) : (s.setFactor n v).mem = s.mem := rfl
@[simp] theorem State.setFactor_askAnswer (s : State) (n : StandId) (v : Level) : (s.setFactor n v).askAnswer = s.askAnswer := rfl
@[simp] theorem State.setFactor_freeValues (s : State) (n : StandId) (v : Level) : (s.setFactor n v).freeValues = s.freeValues := rfl
@[simp] theorem State.setFactor_handovers (s : State) (n : StandId) (v : Level) : (s.setFactor n v).handovers = s.handovers := rfl
@[simp] theorem State.setFactor_pending (s : State) (n : StandId) (v : Level) : (s.setFactor n v).pending = s.pending := rfl

@[simp] theorem State.setTicketRec_uptime (s : State) (n : Nat) (v : TicketRec) : (s.setTicketRec n v).uptime = s.uptime := rfl
@[simp] theorem State.setTicketRec_exu (s : State) (n : Nat) (v : TicketRec) : (s.setTicketRec n v).exu = s.exu := rfl
@[simp] theorem State.setTicketRec_ntc (s : State) (n : Nat) (v : TicketRec) : (s.setTicketRec n v).ntc = s.ntc := rfl
@[simp] theorem State.setTicketRec_cks (s : State) (n : Nat) (v : TicketRec) : (s.setTicketRec n v).cks = s.cks := rfl
@[simp] theorem State.setTicketRec_isu (s : State) (n : Nat) (v : TicketRec) : (s.setTicketRec n v).isu = s.isu := rfl
@[simp] theorem State.setTicketRec_slc (s : State) (n : Nat) (v : TicketRec) : (s.setTicketRec n v).slc = s.slc := rfl
@[simp] theorem State.setTicketRec_dmw (s : State) (n : Nat) (v : TicketRec) : (s.setTicketRec n v).dmw = s.dmw := rfl
@[simp] theorem State.setTicketRec_mem (s : State) (n : Nat) (v : TicketRec) : (s.setTicketRec n v).mem = s.mem := rfl
@[simp] theorem State.setTicketRec_askAnswer (s : State) (n : Nat) (v : TicketRec) : (s.setTicketRec n v).askAnswer = s.askAnswer := rfl
@[simp] theorem State.setTicketRec_freeValues (s : State) (n : Nat) (v : TicketRec) : (s.setTicketRec n v).freeValues = s.freeValues := rfl
@[simp] theorem State.setTicketRec_handovers (s : State) (n : Nat) (v : TicketRec) : (s.setTicketRec n v).handovers = s.handovers := rfl
@[simp] theorem State.setTicketRec_pending (s : State) (n : Nat) (v : TicketRec) : (s.setTicketRec n v).pending = s.pending := rfl

@[simp] theorem State.setTicketAt_uptime (s : State) (n : Nat) (v : Ticket) : (s.setTicketAt n v).uptime = s.uptime := rfl
@[simp] theorem State.setTicketAt_exu (s : State) (n : Nat) (v : Ticket) : (s.setTicketAt n v).exu = s.exu := rfl
@[simp] theorem State.setTicketAt_ntc (s : State) (n : Nat) (v : Ticket) : (s.setTicketAt n v).ntc = s.ntc := rfl
@[simp] theorem State.setTicketAt_cks (s : State) (n : Nat) (v : Ticket) : (s.setTicketAt n v).cks = s.cks := rfl
@[simp] theorem State.setTicketAt_isu (s : State) (n : Nat) (v : Ticket) : (s.setTicketAt n v).isu = s.isu := rfl
@[simp] theorem State.setTicketAt_slc (s : State) (n : Nat) (v : Ticket) : (s.setTicketAt n v).slc = s.slc := rfl
@[simp] theorem State.setTicketAt_dmw (s : State) (n : Nat) (v : Ticket) : (s.setTicketAt n v).dmw = s.dmw := rfl
@[simp] theorem State.setTicketAt_mem (s : State) (n : Nat) (v : Ticket) : (s.setTicketAt n v).mem = s.mem := rfl
@[simp] theorem State.setTicketAt_askAnswer (s : State) (n : Nat) (v : Ticket) : (s.setTicketAt n v).askAnswer = s.askAnswer := rfl
@[simp] theorem State.setTicketAt_freeValues (s : State) (n : Nat) (v : Ticket) : (s.setTicketAt n v).freeValues = s.freeValues := rfl
@[simp] theorem State.setTicketAt_handovers (s : State) (n : Nat) (v : Ticket) : (s.setTicketAt n v).handovers = s.handovers := rfl
@[simp] theorem State.setTicketAt_pending (s : State) (n : Nat) (v : Ticket) : (s.setTicketAt n v).pending = s.pending := rfl

@[simp] theorem State.freeRecord_uptime (s : State) (n : Nat) : (s.freeRecord n).uptime = s.uptime := rfl
@[simp] theorem State.freeRecord_exu (s : State) (n : Nat) : (s.freeRecord n).exu = s.exu := rfl
@[simp] theorem State.freeRecord_ntc (s : State) (n : Nat) : (s.freeRecord n).ntc = s.ntc := rfl
@[simp] theorem State.freeRecord_cks (s : State) (n : Nat) : (s.freeRecord n).cks = s.cks := rfl
@[simp] theorem State.freeRecord_isu (s : State) (n : Nat) : (s.freeRecord n).isu = s.isu := rfl
@[simp] theorem State.freeRecord_slc (s : State) (n : Nat) : (s.freeRecord n).slc = s.slc := rfl
@[simp] theorem State.freeRecord_dmw (s : State) (n : Nat) : (s.freeRecord n).dmw = s.dmw := rfl
@[simp] theorem State.freeRecord_mem (s : State) (n : Nat) : (s.freeRecord n).mem = s.mem := rfl
@[simp] theorem State.freeRecord_askAnswer (s : State) (n : Nat) : (s.freeRecord n).askAnswer = s.askAnswer := rfl
@[simp] theorem State.freeRecord_freeValues (s : State) (n : Nat) : (s.freeRecord n).freeValues = s.freeValues := rfl
@[simp] theorem State.freeRecord_handovers (s : State) (n : Nat) : (s.freeRecord n).handovers = s.handovers := rfl
@[simp] theorem State.freeRecord_pending (s : State) (n : Nat) : (s.freeRecord n).pending = s.pending := rfl

@[simp] theorem State.setQueues_uptime (s : State) (n : StationId) (v : Queues) : (s.setQueues n v).uptime = s.uptime := rfl
@[simp] theorem State.setQueues_exu (s : State) (n : StationId) (v : Queues) : (s.setQueues n v).exu = s.exu := rfl
@[simp] theorem State.setQueues_ntc (s : State) (n : StationId) (v : Queues) : (s.setQueues n v).ntc = s.ntc := rfl
@[simp] theorem State.setQueues_cks (s : State) (n : StationId) (v : Queues) : (s.setQueues n v).cks = s.cks := rfl
@[simp] theorem State.setQueues_isu (s : State) (n : StationId) (v : Queues) : (s.setQueues n v).isu = s.isu := rfl
@[simp] theorem State.setQueues_slc (s : State) (n : StationId) (v : Queues) : (s.setQueues n v).slc = s.slc := rfl
@[simp] theorem State.setQueues_dmw (s : State) (n : StationId) (v : Queues) : (s.setQueues n v).dmw = s.dmw := rfl
@[simp] theorem State.setQueues_mem (s : State) (n : StationId) (v : Queues) : (s.setQueues n v).mem = s.mem := rfl
@[simp] theorem State.setQueues_askAnswer (s : State) (n : StationId) (v : Queues) : (s.setQueues n v).askAnswer = s.askAnswer := rfl
@[simp] theorem State.setQueues_freeValues (s : State) (n : StationId) (v : Queues) : (s.setQueues n v).freeValues = s.freeValues := rfl
@[simp] theorem State.setQueues_handovers (s : State) (n : StationId) (v : Queues) : (s.setQueues n v).handovers = s.handovers := rfl
@[simp] theorem State.setQueues_pending (s : State) (n : StationId) (v : Queues) : (s.setQueues n v).pending = s.pending := rfl

@[simp] theorem State.setLink_uptime (s : State) (n : StationId) (v : Link) : (s.setLink n v).uptime = s.uptime := rfl
@[simp] theorem State.setLink_exu (s : State) (n : StationId) (v : Link) : (s.setLink n v).exu = s.exu := rfl
@[simp] theorem State.setLink_ntc (s : State) (n : StationId) (v : Link) : (s.setLink n v).ntc = s.ntc := rfl
@[simp] theorem State.setLink_cks (s : State) (n : StationId) (v : Link) : (s.setLink n v).cks = s.cks := rfl
@[simp] theorem State.setLink_isu (s : State) (n : StationId) (v : Link) : (s.setLink n v).isu = s.isu := rfl
@[simp] theorem State.setLink_tkr (s : State) (n : StationId) (v : Link) : (s.setLink n v).tkr = s.tkr := rfl
@[simp] theorem State.setLink_dmw (s : State) (n : StationId) (v : Link) : (s.setLink n v).dmw = s.dmw := rfl
@[simp] theorem State.setLink_mem (s : State) (n : StationId) (v : Link) : (s.setLink n v).mem = s.mem := rfl
@[simp] theorem State.setLink_askAnswer (s : State) (n : StationId) (v : Link) : (s.setLink n v).askAnswer = s.askAnswer := rfl
@[simp] theorem State.setLink_freeValues (s : State) (n : StationId) (v : Link) : (s.setLink n v).freeValues = s.freeValues := rfl
@[simp] theorem State.setLink_handovers (s : State) (n : StationId) (v : Link) : (s.setLink n v).handovers = s.handovers := rfl
@[simp] theorem State.setLink_pending (s : State) (n : StationId) (v : Link) : (s.setLink n v).pending = s.pending := rfl

@[simp] theorem State.setPace_uptime (s : State) (n : StandId) (v : Pace) : (s.setPace n v).uptime = s.uptime := rfl
@[simp] theorem State.setPace_exu (s : State) (n : StandId) (v : Pace) : (s.setPace n v).exu = s.exu := rfl
@[simp] theorem State.setPace_ntc (s : State) (n : StandId) (v : Pace) : (s.setPace n v).ntc = s.ntc := rfl
@[simp] theorem State.setPace_cks (s : State) (n : StandId) (v : Pace) : (s.setPace n v).cks = s.cks := rfl
@[simp] theorem State.setPace_isu (s : State) (n : StandId) (v : Pace) : (s.setPace n v).isu = s.isu := rfl
@[simp] theorem State.setPace_tkr (s : State) (n : StandId) (v : Pace) : (s.setPace n v).tkr = s.tkr := rfl
@[simp] theorem State.setPace_slc (s : State) (n : StandId) (v : Pace) : (s.setPace n v).slc = s.slc := rfl
@[simp] theorem State.setPace_mem (s : State) (n : StandId) (v : Pace) : (s.setPace n v).mem = s.mem := rfl
@[simp] theorem State.setPace_askAnswer (s : State) (n : StandId) (v : Pace) : (s.setPace n v).askAnswer = s.askAnswer := rfl
@[simp] theorem State.setPace_freeValues (s : State) (n : StandId) (v : Pace) : (s.setPace n v).freeValues = s.freeValues := rfl
@[simp] theorem State.setPace_handovers (s : State) (n : StandId) (v : Pace) : (s.setPace n v).handovers = s.handovers := rfl
@[simp] theorem State.setPace_pending (s : State) (n : StandId) (v : Pace) : (s.setPace n v).pending = s.pending := rfl

@[simp] theorem State.setDemand_uptime (s : State) (n : SlotId) (v : Filter) : (s.setDemand n v).uptime = s.uptime := rfl
@[simp] theorem State.setDemand_exu (s : State) (n : SlotId) (v : Filter) : (s.setDemand n v).exu = s.exu := rfl
@[simp] theorem State.setDemand_ntc (s : State) (n : SlotId) (v : Filter) : (s.setDemand n v).ntc = s.ntc := rfl
@[simp] theorem State.setDemand_cks (s : State) (n : SlotId) (v : Filter) : (s.setDemand n v).cks = s.cks := rfl
@[simp] theorem State.setDemand_isu (s : State) (n : SlotId) (v : Filter) : (s.setDemand n v).isu = s.isu := rfl
@[simp] theorem State.setDemand_tkr (s : State) (n : SlotId) (v : Filter) : (s.setDemand n v).tkr = s.tkr := rfl
@[simp] theorem State.setDemand_slc (s : State) (n : SlotId) (v : Filter) : (s.setDemand n v).slc = s.slc := rfl
@[simp] theorem State.setDemand_mem (s : State) (n : SlotId) (v : Filter) : (s.setDemand n v).mem = s.mem := rfl
@[simp] theorem State.setDemand_askAnswer (s : State) (n : SlotId) (v : Filter) : (s.setDemand n v).askAnswer = s.askAnswer := rfl
@[simp] theorem State.setDemand_freeValues (s : State) (n : SlotId) (v : Filter) : (s.setDemand n v).freeValues = s.freeValues := rfl
@[simp] theorem State.setDemand_handovers (s : State) (n : SlotId) (v : Filter) : (s.setDemand n v).handovers = s.handovers := rfl
@[simp] theorem State.setDemand_pending (s : State) (n : SlotId) (v : Filter) : (s.setDemand n v).pending = s.pending := rfl

@[simp] theorem State.setByte_uptime (s : State) (a : Nat) (b : Byte) : (s.setByte a b).uptime = s.uptime := rfl
@[simp] theorem State.setByte_exu (s : State) (a : Nat) (b : Byte) : (s.setByte a b).exu = s.exu := rfl
@[simp] theorem State.setByte_ntc (s : State) (a : Nat) (b : Byte) : (s.setByte a b).ntc = s.ntc := rfl
@[simp] theorem State.setByte_cks (s : State) (a : Nat) (b : Byte) : (s.setByte a b).cks = s.cks := rfl
@[simp] theorem State.setByte_isu (s : State) (a : Nat) (b : Byte) : (s.setByte a b).isu = s.isu := rfl
@[simp] theorem State.setByte_tkr (s : State) (a : Nat) (b : Byte) : (s.setByte a b).tkr = s.tkr := rfl
@[simp] theorem State.setByte_slc (s : State) (a : Nat) (b : Byte) : (s.setByte a b).slc = s.slc := rfl
@[simp] theorem State.setByte_dmw (s : State) (a : Nat) (b : Byte) : (s.setByte a b).dmw = s.dmw := rfl
@[simp] theorem State.setByte_askAnswer (s : State) (a : Nat) (b : Byte) : (s.setByte a b).askAnswer = s.askAnswer := rfl
@[simp] theorem State.setByte_freeValues (s : State) (a : Nat) (b : Byte) : (s.setByte a b).freeValues = s.freeValues := rfl
@[simp] theorem State.setByte_handovers (s : State) (a : Nat) (b : Byte) : (s.setByte a b).handovers = s.handovers := rfl
@[simp] theorem State.setByte_pending (s : State) (a : Nat) (b : Byte) : (s.setByte a b).pending = s.pending := rfl

@[simp] theorem State.advance_ntc (s : State) (n : Nat) : (s.advance n).ntc = s.ntc := rfl
@[simp] theorem State.advance_cks (s : State) (n : Nat) : (s.advance n).cks = s.cks := rfl
@[simp] theorem State.advance_isu (s : State) (n : Nat) : (s.advance n).isu = s.isu := rfl
@[simp] theorem State.advance_tkr (s : State) (n : Nat) : (s.advance n).tkr = s.tkr := rfl
@[simp] theorem State.advance_slc (s : State) (n : Nat) : (s.advance n).slc = s.slc := rfl
@[simp] theorem State.advance_dmw (s : State) (n : Nat) : (s.advance n).dmw = s.dmw := rfl
@[simp] theorem State.advance_mem (s : State) (n : Nat) : (s.advance n).mem = s.mem := rfl
@[simp] theorem State.advance_askAnswer (s : State) (n : Nat) : (s.advance n).askAnswer = s.askAnswer := rfl
@[simp] theorem State.advance_freeValues (s : State) (n : Nat) : (s.advance n).freeValues = s.freeValues := rfl
@[simp] theorem State.advance_handovers (s : State) (n : Nat) : (s.advance n).handovers = s.handovers := rfl
@[simp] theorem State.advance_pending (s : State) (n : Nat) : (s.advance n).pending = s.pending := rfl

@[simp] theorem State.clockToZero_uptime (s : State) : s.clockToZero.uptime = s.uptime := rfl
@[simp] theorem State.clockToZero_ntc (s : State) : s.clockToZero.ntc = s.ntc := rfl
@[simp] theorem State.clockToZero_cks (s : State) : s.clockToZero.cks = s.cks := rfl
@[simp] theorem State.clockToZero_slc (s : State) : s.clockToZero.slc = s.slc := rfl
@[simp] theorem State.clockToZero_dmw (s : State) : s.clockToZero.dmw = s.dmw := rfl
@[simp] theorem State.clockToZero_mem (s : State) : s.clockToZero.mem = s.mem := rfl
@[simp] theorem State.clockToZero_askAnswer (s : State) : s.clockToZero.askAnswer = s.askAnswer := rfl
@[simp] theorem State.clockToZero_freeValues (s : State) : s.clockToZero.freeValues = s.freeValues := rfl
@[simp] theorem State.clockToZero_handovers (s : State) : s.clockToZero.handovers = s.handovers := rfl
@[simp] theorem State.clockToZero_pending (s : State) : s.clockToZero.pending = s.pending := rfl
@[simp] theorem State.clockToZero_exu (s : State) : s.clockToZero.exu = { s.exu with dayClock := 0 } := rfl
@[simp] theorem State.clockToZero_item (s : State) (x : ItemId) : s.clockToZero.item x = s.item x := rfl
@[simp] theorem State.clockToZero_ticketRec (s : State) (i : Nat) : s.clockToZero.ticketRec i = s.ticketRec i := rfl
@[simp] theorem State.clockToZero_batch (s : State) (b : SlotId) : s.clockToZero.batch b = (s.batch b).backBy s.exu.dayClock :=
  Table.read_mapRecords rfl s.isu.batches b.val

@[simp] theorem State.hand_uptime (s : State) (c : Instr) : (s.hand c).uptime = s.uptime := rfl
@[simp] theorem State.hand_exu (s : State) (c : Instr) : (s.hand c).exu = s.exu := rfl
@[simp] theorem State.hand_ntc (s : State) (c : Instr) : (s.hand c).ntc = s.ntc := rfl
@[simp] theorem State.hand_cks (s : State) (c : Instr) : (s.hand c).cks = s.cks := rfl
@[simp] theorem State.hand_isu (s : State) (c : Instr) : (s.hand c).isu = s.isu := rfl
@[simp] theorem State.hand_tkr (s : State) (c : Instr) : (s.hand c).tkr = s.tkr := rfl
@[simp] theorem State.hand_slc (s : State) (c : Instr) : (s.hand c).slc = s.slc := rfl
@[simp] theorem State.hand_dmw (s : State) (c : Instr) : (s.hand c).dmw = s.dmw := rfl
@[simp] theorem State.hand_mem (s : State) (c : Instr) : (s.hand c).mem = s.mem := rfl
@[simp] theorem State.hand_askAnswer (s : State) (c : Instr) : (s.hand c).askAnswer = s.askAnswer := rfl
@[simp] theorem State.hand_freeValues (s : State) (c : Instr) : (s.hand c).freeValues = s.freeValues := rfl
@[simp] theorem State.hand_pending (s : State) (c : Instr) : (s.hand c).pending = s.pending := rfl

@[simp] theorem State.handAll_uptime (s : State) (cs : List Instr) : (s.handAll cs).uptime = s.uptime := rfl
@[simp] theorem State.handAll_exu (s : State) (cs : List Instr) : (s.handAll cs).exu = s.exu := rfl
@[simp] theorem State.handAll_ntc (s : State) (cs : List Instr) : (s.handAll cs).ntc = s.ntc := rfl
@[simp] theorem State.handAll_cks (s : State) (cs : List Instr) : (s.handAll cs).cks = s.cks := rfl
@[simp] theorem State.handAll_isu (s : State) (cs : List Instr) : (s.handAll cs).isu = s.isu := rfl
@[simp] theorem State.handAll_tkr (s : State) (cs : List Instr) : (s.handAll cs).tkr = s.tkr := rfl
@[simp] theorem State.handAll_slc (s : State) (cs : List Instr) : (s.handAll cs).slc = s.slc := rfl
@[simp] theorem State.handAll_dmw (s : State) (cs : List Instr) : (s.handAll cs).dmw = s.dmw := rfl
@[simp] theorem State.handAll_mem (s : State) (cs : List Instr) : (s.handAll cs).mem = s.mem := rfl
@[simp] theorem State.handAll_askAnswer (s : State) (cs : List Instr) : (s.handAll cs).askAnswer = s.askAnswer := rfl
@[simp] theorem State.handAll_freeValues (s : State) (cs : List Instr) : (s.handAll cs).freeValues = s.freeValues := rfl
@[simp] theorem State.handAll_pending (s : State) (cs : List Instr) : (s.handAll cs).pending = s.pending := rfl

@[simp] theorem State.taken_uptime (s : State) (c : Instr) : (s.taken c).uptime = s.uptime := rfl
@[simp] theorem State.taken_exu (s : State) (c : Instr) : (s.taken c).exu = s.exu := rfl
@[simp] theorem State.taken_ntc (s : State) (c : Instr) : (s.taken c).ntc = s.ntc := rfl
@[simp] theorem State.taken_cks (s : State) (c : Instr) : (s.taken c).cks = s.cks := rfl
@[simp] theorem State.taken_isu (s : State) (c : Instr) : (s.taken c).isu = s.isu := rfl
@[simp] theorem State.taken_tkr (s : State) (c : Instr) : (s.taken c).tkr = s.tkr := rfl
@[simp] theorem State.taken_slc (s : State) (c : Instr) : (s.taken c).slc = s.slc := rfl
@[simp] theorem State.taken_dmw (s : State) (c : Instr) : (s.taken c).dmw = s.dmw := rfl
@[simp] theorem State.taken_mem (s : State) (c : Instr) : (s.taken c).mem = s.mem := rfl
@[simp] theorem State.taken_askAnswer (s : State) (c : Instr) : (s.taken c).askAnswer = s.askAnswer := rfl
@[simp] theorem State.taken_freeValues (s : State) (c : Instr) : (s.taken c).freeValues = s.freeValues := rfl
@[simp] theorem State.taken_pending (s : State) (c : Instr) : (s.taken c).pending = s.pending := rfl

@[simp] theorem State.raise_uptime (s : State) (k : NoticeKind) (w : Word) (vs : List Word) : (s.raise k w vs).uptime = s.uptime := rfl
@[simp] theorem State.raise_exu (s : State) (k : NoticeKind) (w : Word) (vs : List Word) : (s.raise k w vs).exu = s.exu := rfl
@[simp] theorem State.raise_ntc (s : State) (k : NoticeKind) (w : Word) (vs : List Word) : (s.raise k w vs).ntc = s.ntc := rfl
@[simp] theorem State.raise_cks (s : State) (k : NoticeKind) (w : Word) (vs : List Word) : (s.raise k w vs).cks = s.cks := rfl
@[simp] theorem State.raise_isu (s : State) (k : NoticeKind) (w : Word) (vs : List Word) : (s.raise k w vs).isu = s.isu := rfl
@[simp] theorem State.raise_tkr (s : State) (k : NoticeKind) (w : Word) (vs : List Word) : (s.raise k w vs).tkr = s.tkr := rfl
@[simp] theorem State.raise_slc (s : State) (k : NoticeKind) (w : Word) (vs : List Word) : (s.raise k w vs).slc = s.slc := rfl
@[simp] theorem State.raise_dmw (s : State) (k : NoticeKind) (w : Word) (vs : List Word) : (s.raise k w vs).dmw = s.dmw := rfl
@[simp] theorem State.raise_mem (s : State) (k : NoticeKind) (w : Word) (vs : List Word) : (s.raise k w vs).mem = s.mem := rfl
@[simp] theorem State.raise_askAnswer (s : State) (k : NoticeKind) (w : Word) (vs : List Word) : (s.raise k w vs).askAnswer = s.askAnswer := rfl
@[simp] theorem State.raise_freeValues (s : State) (k : NoticeKind) (w : Word) (vs : List Word) : (s.raise k w vs).freeValues = s.freeValues := rfl
@[simp] theorem State.raise_pending (s : State) (k : NoticeKind) (w : Word) (vs : List Word) : (s.raise k w vs).pending = s.pending := rfl

@[simp] theorem State.answerWith_uptime (s : State) (a : Answer) : (s.answerWith a).uptime = s.uptime := rfl
@[simp] theorem State.answerWith_ntc (s : State) (a : Answer) : (s.answerWith a).ntc = s.ntc := rfl
@[simp] theorem State.answerWith_cks (s : State) (a : Answer) : (s.answerWith a).cks = s.cks := rfl
@[simp] theorem State.answerWith_isu (s : State) (a : Answer) : (s.answerWith a).isu = s.isu := rfl
@[simp] theorem State.answerWith_tkr (s : State) (a : Answer) : (s.answerWith a).tkr = s.tkr := rfl
@[simp] theorem State.answerWith_slc (s : State) (a : Answer) : (s.answerWith a).slc = s.slc := rfl
@[simp] theorem State.answerWith_dmw (s : State) (a : Answer) : (s.answerWith a).dmw = s.dmw := rfl
@[simp] theorem State.answerWith_mem (s : State) (a : Answer) : (s.answerWith a).mem = s.mem := rfl
@[simp] theorem State.answerWith_askAnswer (s : State) (a : Answer) : (s.answerWith a).askAnswer = s.askAnswer := rfl
@[simp] theorem State.answerWith_freeValues (s : State) (a : Answer) : (s.answerWith a).freeValues = s.freeValues := rfl
@[simp] theorem State.answerWith_handovers (s : State) (a : Answer) : (s.answerWith a).handovers = s.handovers := rfl
@[simp] theorem State.answerWith_pending (s : State) (a : Answer) : (s.answerWith a).pending = s.pending := rfl

@[simp] theorem State.useFree_uptime (s : State) (n : Nat) : (s.useFree n).uptime = s.uptime := rfl
@[simp] theorem State.useFree_exu (s : State) (n : Nat) : (s.useFree n).exu = s.exu := rfl
@[simp] theorem State.useFree_ntc (s : State) (n : Nat) : (s.useFree n).ntc = s.ntc := rfl
@[simp] theorem State.useFree_cks (s : State) (n : Nat) : (s.useFree n).cks = s.cks := rfl
@[simp] theorem State.useFree_isu (s : State) (n : Nat) : (s.useFree n).isu = s.isu := rfl
@[simp] theorem State.useFree_tkr (s : State) (n : Nat) : (s.useFree n).tkr = s.tkr := rfl
@[simp] theorem State.useFree_slc (s : State) (n : Nat) : (s.useFree n).slc = s.slc := rfl
@[simp] theorem State.useFree_dmw (s : State) (n : Nat) : (s.useFree n).dmw = s.dmw := rfl
@[simp] theorem State.useFree_mem (s : State) (n : Nat) : (s.useFree n).mem = s.mem := rfl
@[simp] theorem State.useFree_askAnswer (s : State) (n : Nat) : (s.useFree n).askAnswer = s.askAnswer := rfl
@[simp] theorem State.useFree_handovers (s : State) (n : Nat) : (s.useFree n).handovers = s.handovers := rfl
@[simp] theorem State.useFree_pending (s : State) (n : Nat) : (s.useFree n).pending = s.pending := rfl
@[simp] theorem State.useFree_freeValues (s : State) (n : Nat) : (s.useFree n).freeValues = s.freeValues + n := rfl

@[simp] theorem State.askAnswered_freeValues (s : State) (a : AskAnswer) : (s.askAnswered a).freeValues = s.freeValues := rfl
@[simp] theorem State.askAnswered_uptime (s : State) (a : AskAnswer) : (s.askAnswered a).uptime = s.uptime := rfl
@[simp] theorem State.askAnswered_exu (s : State) (a : AskAnswer) : (s.askAnswered a).exu = s.exu := rfl
@[simp] theorem State.askAnswered_ntc (s : State) (a : AskAnswer) : (s.askAnswered a).ntc = s.ntc := rfl
@[simp] theorem State.askAnswered_cks (s : State) (a : AskAnswer) : (s.askAnswered a).cks = s.cks := rfl
@[simp] theorem State.askAnswered_isu (s : State) (a : AskAnswer) : (s.askAnswered a).isu = s.isu := rfl
@[simp] theorem State.askAnswered_tkr (s : State) (a : AskAnswer) : (s.askAnswered a).tkr = s.tkr := rfl
@[simp] theorem State.askAnswered_slc (s : State) (a : AskAnswer) : (s.askAnswered a).slc = s.slc := rfl
@[simp] theorem State.askAnswered_dmw (s : State) (a : AskAnswer) : (s.askAnswered a).dmw = s.dmw := rfl
@[simp] theorem State.askAnswered_mem (s : State) (a : AskAnswer) : (s.askAnswered a).mem = s.mem := rfl
@[simp] theorem State.askAnswered_handovers (s : State) (a : AskAnswer) : (s.askAnswered a).handovers = s.handovers := rfl
@[simp] theorem State.askAnswered_pending (s : State) (a : AskAnswer) : (s.askAnswered a).pending = s.pending := rfl

@[simp] theorem State.setFault_uptime (s : State) (b : FaultBit) : (s.setFault b).uptime = s.uptime := rfl
@[simp] theorem State.setFault_ntc (s : State) (b : FaultBit) : (s.setFault b).ntc = s.ntc := rfl
@[simp] theorem State.setFault_cks (s : State) (b : FaultBit) : (s.setFault b).cks = s.cks := rfl
@[simp] theorem State.setFault_isu (s : State) (b : FaultBit) : (s.setFault b).isu = s.isu := rfl
@[simp] theorem State.setFault_tkr (s : State) (b : FaultBit) : (s.setFault b).tkr = s.tkr := rfl
@[simp] theorem State.setFault_slc (s : State) (b : FaultBit) : (s.setFault b).slc = s.slc := rfl
@[simp] theorem State.setFault_dmw (s : State) (b : FaultBit) : (s.setFault b).dmw = s.dmw := rfl
@[simp] theorem State.setFault_mem (s : State) (b : FaultBit) : (s.setFault b).mem = s.mem := rfl
@[simp] theorem State.setFault_askAnswer (s : State) (b : FaultBit) : (s.setFault b).askAnswer = s.askAnswer := rfl
@[simp] theorem State.setFault_freeValues (s : State) (b : FaultBit) : (s.setFault b).freeValues = s.freeValues := rfl
@[simp] theorem State.setFault_handovers (s : State) (b : FaultBit) : (s.setFault b).handovers = s.handovers := rfl
@[simp] theorem State.setFault_pending (s : State) (b : FaultBit) : (s.setFault b).pending = s.pending := rfl

/-! ### The fields that change -/

@[simp] theorem State.hand_handovers (s : State) (c : Instr) : (s.hand c).handovers = s.handovers ++ [c] := rfl
@[simp] theorem State.handAll_handovers (s : State) (cs : List Instr) : (s.handAll cs).handovers = s.handovers ++ cs := rfl
@[simp] theorem State.taken_handovers (s : State) (c : Instr) : (s.taken c).handovers = takeFirst c s.handovers := rfl
@[simp] theorem State.raise_handovers (s : State) (k : NoticeKind) (w : Word) (vs : List Word) :
    (s.raise k w vs).handovers = s.handovers ++ [.noticeRaise { kind := k, subject := w, values := vs }] := rfl
@[simp] theorem State.answerWith_exu (s : State) (a : Answer) : (s.answerWith a).exu = { s.exu with answer := some a } := rfl
@[simp] theorem State.askAnswered_askAnswer (s : State) (a : AskAnswer) : (s.askAnswered a).askAnswer = some a := rfl
@[simp] theorem State.advance_uptime (s : State) (n : Nat) : (s.advance n).uptime = s.uptime + n := rfl
@[simp] theorem State.advance_exu (s : State) (n : Nat) :
    (s.advance n).exu = { s.exu with dayClock := s.exu.dayClock + BitVec.ofNat 32 n } := rfl
@[simp] theorem State.setFault_exu (s : State) (b : FaultBit) :
    (s.setFault b).exu = { s.exu with fault := s.exu.fault ||| (1#7 <<< b.number) } := rfl

/-! ### Records after an update of the same kind -/

@[simp] theorem State.stand_setStand (s : State) (n m : StandId) (v : Stand) :
    (s.setStand n v).stand m = if m = n then v else s.stand m := by
  simp [State.stand, State.setStand, Table.read_write, Fin.ext_iff]
@[simp] theorem State.till_setTill (s : State) (n m : Nat) (v : Till) :
    (s.setTill n v).till m = if m = n then v else s.till m := by
  simp [State.till, State.setTill, Table.read_write]
@[simp] theorem State.checkSlot_setCheckSlot (s : State) (n m : BitVec 10) (v : CheckSlot) :
    (s.setCheckSlot n v).checkSlot m = if m = n then v else s.checkSlot m := by
  simp [State.checkSlot, State.setCheckSlot, Table.read_write, BitVec.toNat_inj]
@[simp] theorem State.item_setItem (s : State) (n m : ItemId) (v : Item) :
    (s.setItem n v).item m = if m = n then v else s.item m := by
  simp [State.item, State.setItem, Table.read_write, Fin.ext_iff]
@[simp] theorem State.batch_setBatch (s : State) (n m : SlotId) (v : Batch) :
    (s.setBatch n v).batch m = if m = n then v else s.batch m := by
  simp [State.batch, State.setBatch, Table.read_write, Fin.ext_iff]
@[simp] theorem State.factor_setFactor (s : State) (n m : StandId) (v : Level) :
    (s.setFactor n v).factor m = if m = n then v else s.factor m := by
  simp [State.factor, State.setFactor, Table.read_write, Fin.ext_iff]
@[simp] theorem State.ticketRec_setTicketRec (s : State) (n m : Nat) (v : TicketRec) :
    (s.setTicketRec n v).ticketRec m = if m = n then v else s.ticketRec m := by
  simp [State.ticketRec, State.setTicketRec, Table.read_write]
@[simp] theorem State.queues_setQueues (s : State) (n m : StationId) (v : Queues) :
    (s.setQueues n v).queues m = if m = n then v else s.queues m := by
  simp [State.queues, State.setQueues, Table.read_write, Fin.ext_iff]
@[simp] theorem State.link_setLink (s : State) (n m : StationId) (v : Link) :
    (s.setLink n v).link m = if m = n then v else s.link m := by
  simp [State.link, State.setLink, Table.read_write, Fin.ext_iff]
@[simp] theorem State.pace_setPace (s : State) (n m : StandId) (v : Pace) :
    (s.setPace n v).pace m = if m = n then v else s.pace m := by
  simp [State.pace, State.setPace, Table.read_write, Fin.ext_iff]
@[simp] theorem State.demand_setDemand (s : State) (n m : SlotId) (v : Filter) :
    (s.setDemand n v).demand m = if m = n then v else s.demand m := by
  simp [State.demand, State.setDemand, Table.read_write, Fin.ext_iff]
@[simp] theorem State.byteAt_setByte (s : State) (a c : Nat) (b : Byte) :
    (s.setByte a b).byteAt c = if c = a then b else s.byteAt c := by
  simp [State.byteAt, State.setByte, Table.read_write]

/-! ### Records of another kind, and after an update of no record -/


@[simp] theorem State.till_setStand (s : State) (n : StandId) (v : Stand) (m : Nat) : (s.setStand n v).till m = s.till m := rfl
@[simp] theorem State.checkSlot_setStand (s : State) (n : StandId) (v : Stand) (m : BitVec 10) : (s.setStand n v).checkSlot m = s.checkSlot m := rfl
@[simp] theorem State.check_setStand (s : State) (n : StandId) (v : Stand) (m : Handle) : (s.setStand n v).check m = s.check m := rfl
@[simp] theorem State.line_setStand (s : State) (n : StandId) (v : Stand) (m : LineRef) : (s.setStand n v).line m = s.line m := rfl
@[simp] theorem State.item_setStand (s : State) (n : StandId) (v : Stand) (m : ItemId) : (s.setStand n v).item m = s.item m := rfl
@[simp] theorem State.batch_setStand (s : State) (n : StandId) (v : Stand) (m : SlotId) : (s.setStand n v).batch m = s.batch m := rfl
@[simp] theorem State.factor_setStand (s : State) (n : StandId) (v : Stand) (m : StandId) : (s.setStand n v).factor m = s.factor m := rfl
@[simp] theorem State.ticketRec_setStand (s : State) (n : StandId) (v : Stand) (m : Nat) : (s.setStand n v).ticketRec m = s.ticketRec m := rfl
@[simp] theorem State.ticketAt_setStand (s : State) (n : StandId) (v : Stand) (m : Nat) : (s.setStand n v).ticketAt m = s.ticketAt m := rfl
@[simp] theorem State.ticket_setStand (s : State) (n : StandId) (v : Stand) (m : Tag) : (s.setStand n v).ticket m = s.ticket m := rfl
@[simp] theorem State.queues_setStand (s : State) (n : StandId) (v : Stand) (m : StationId) : (s.setStand n v).queues m = s.queues m := rfl
@[simp] theorem State.link_setStand (s : State) (n : StandId) (v : Stand) (m : StationId) : (s.setStand n v).link m = s.link m := rfl
@[simp] theorem State.pace_setStand (s : State) (n : StandId) (v : Stand) (m : StandId) : (s.setStand n v).pace m = s.pace m := rfl
@[simp] theorem State.demand_setStand (s : State) (n : StandId) (v : Stand) (m : SlotId) : (s.setStand n v).demand m = s.demand m := rfl
@[simp] theorem State.byteAt_setStand (s : State) (n : StandId) (v : Stand) (m : Nat) : (s.setStand n v).byteAt m = s.byteAt m := rfl

@[simp] theorem State.stand_setTill (s : State) (n : Nat) (v : Till) (m : StandId) : (s.setTill n v).stand m = s.stand m := rfl
@[simp] theorem State.checkSlot_setTill (s : State) (n : Nat) (v : Till) (m : BitVec 10) : (s.setTill n v).checkSlot m = s.checkSlot m := rfl
@[simp] theorem State.check_setTill (s : State) (n : Nat) (v : Till) (m : Handle) : (s.setTill n v).check m = s.check m := rfl
@[simp] theorem State.line_setTill (s : State) (n : Nat) (v : Till) (m : LineRef) : (s.setTill n v).line m = s.line m := rfl
@[simp] theorem State.item_setTill (s : State) (n : Nat) (v : Till) (m : ItemId) : (s.setTill n v).item m = s.item m := rfl
@[simp] theorem State.batch_setTill (s : State) (n : Nat) (v : Till) (m : SlotId) : (s.setTill n v).batch m = s.batch m := rfl
@[simp] theorem State.factor_setTill (s : State) (n : Nat) (v : Till) (m : StandId) : (s.setTill n v).factor m = s.factor m := rfl
@[simp] theorem State.ticketRec_setTill (s : State) (n : Nat) (v : Till) (m : Nat) : (s.setTill n v).ticketRec m = s.ticketRec m := rfl
@[simp] theorem State.ticketAt_setTill (s : State) (n : Nat) (v : Till) (m : Nat) : (s.setTill n v).ticketAt m = s.ticketAt m := rfl
@[simp] theorem State.ticket_setTill (s : State) (n : Nat) (v : Till) (m : Tag) : (s.setTill n v).ticket m = s.ticket m := rfl
@[simp] theorem State.queues_setTill (s : State) (n : Nat) (v : Till) (m : StationId) : (s.setTill n v).queues m = s.queues m := rfl
@[simp] theorem State.link_setTill (s : State) (n : Nat) (v : Till) (m : StationId) : (s.setTill n v).link m = s.link m := rfl
@[simp] theorem State.pace_setTill (s : State) (n : Nat) (v : Till) (m : StandId) : (s.setTill n v).pace m = s.pace m := rfl
@[simp] theorem State.demand_setTill (s : State) (n : Nat) (v : Till) (m : SlotId) : (s.setTill n v).demand m = s.demand m := rfl
@[simp] theorem State.byteAt_setTill (s : State) (n : Nat) (v : Till) (m : Nat) : (s.setTill n v).byteAt m = s.byteAt m := rfl

@[simp] theorem State.stand_setCheckSlot (s : State) (n : BitVec 10) (v : CheckSlot) (m : StandId) : (s.setCheckSlot n v).stand m = s.stand m := rfl
@[simp] theorem State.till_setCheckSlot (s : State) (n : BitVec 10) (v : CheckSlot) (m : Nat) : (s.setCheckSlot n v).till m = s.till m := rfl
@[simp] theorem State.item_setCheckSlot (s : State) (n : BitVec 10) (v : CheckSlot) (m : ItemId) : (s.setCheckSlot n v).item m = s.item m := rfl
@[simp] theorem State.batch_setCheckSlot (s : State) (n : BitVec 10) (v : CheckSlot) (m : SlotId) : (s.setCheckSlot n v).batch m = s.batch m := rfl
@[simp] theorem State.factor_setCheckSlot (s : State) (n : BitVec 10) (v : CheckSlot) (m : StandId) : (s.setCheckSlot n v).factor m = s.factor m := rfl
@[simp] theorem State.ticketRec_setCheckSlot (s : State) (n : BitVec 10) (v : CheckSlot) (m : Nat) : (s.setCheckSlot n v).ticketRec m = s.ticketRec m := rfl
@[simp] theorem State.ticketAt_setCheckSlot (s : State) (n : BitVec 10) (v : CheckSlot) (m : Nat) : (s.setCheckSlot n v).ticketAt m = s.ticketAt m := rfl
@[simp] theorem State.ticket_setCheckSlot (s : State) (n : BitVec 10) (v : CheckSlot) (m : Tag) : (s.setCheckSlot n v).ticket m = s.ticket m := rfl
@[simp] theorem State.queues_setCheckSlot (s : State) (n : BitVec 10) (v : CheckSlot) (m : StationId) : (s.setCheckSlot n v).queues m = s.queues m := rfl
@[simp] theorem State.link_setCheckSlot (s : State) (n : BitVec 10) (v : CheckSlot) (m : StationId) : (s.setCheckSlot n v).link m = s.link m := rfl
@[simp] theorem State.pace_setCheckSlot (s : State) (n : BitVec 10) (v : CheckSlot) (m : StandId) : (s.setCheckSlot n v).pace m = s.pace m := rfl
@[simp] theorem State.demand_setCheckSlot (s : State) (n : BitVec 10) (v : CheckSlot) (m : SlotId) : (s.setCheckSlot n v).demand m = s.demand m := rfl
@[simp] theorem State.byteAt_setCheckSlot (s : State) (n : BitVec 10) (v : CheckSlot) (m : Nat) : (s.setCheckSlot n v).byteAt m = s.byteAt m := rfl

@[simp] theorem State.stand_setCheck (s : State) (n : Handle) (v : Check) (m : StandId) : (s.setCheck n v).stand m = s.stand m := rfl
@[simp] theorem State.till_setCheck (s : State) (n : Handle) (v : Check) (m : Nat) : (s.setCheck n v).till m = s.till m := rfl
@[simp] theorem State.item_setCheck (s : State) (n : Handle) (v : Check) (m : ItemId) : (s.setCheck n v).item m = s.item m := rfl
@[simp] theorem State.batch_setCheck (s : State) (n : Handle) (v : Check) (m : SlotId) : (s.setCheck n v).batch m = s.batch m := rfl
@[simp] theorem State.factor_setCheck (s : State) (n : Handle) (v : Check) (m : StandId) : (s.setCheck n v).factor m = s.factor m := rfl
@[simp] theorem State.ticketRec_setCheck (s : State) (n : Handle) (v : Check) (m : Nat) : (s.setCheck n v).ticketRec m = s.ticketRec m := rfl
@[simp] theorem State.ticketAt_setCheck (s : State) (n : Handle) (v : Check) (m : Nat) : (s.setCheck n v).ticketAt m = s.ticketAt m := rfl
@[simp] theorem State.ticket_setCheck (s : State) (n : Handle) (v : Check) (m : Tag) : (s.setCheck n v).ticket m = s.ticket m := rfl
@[simp] theorem State.queues_setCheck (s : State) (n : Handle) (v : Check) (m : StationId) : (s.setCheck n v).queues m = s.queues m := rfl
@[simp] theorem State.link_setCheck (s : State) (n : Handle) (v : Check) (m : StationId) : (s.setCheck n v).link m = s.link m := rfl
@[simp] theorem State.pace_setCheck (s : State) (n : Handle) (v : Check) (m : StandId) : (s.setCheck n v).pace m = s.pace m := rfl
@[simp] theorem State.demand_setCheck (s : State) (n : Handle) (v : Check) (m : SlotId) : (s.setCheck n v).demand m = s.demand m := rfl
@[simp] theorem State.byteAt_setCheck (s : State) (n : Handle) (v : Check) (m : Nat) : (s.setCheck n v).byteAt m = s.byteAt m := rfl

@[simp] theorem State.stand_freeSlot (s : State) (n : Handle) (m : StandId) : (s.freeSlot n).stand m = s.stand m := rfl
@[simp] theorem State.till_freeSlot (s : State) (n : Handle) (m : Nat) : (s.freeSlot n).till m = s.till m := rfl
@[simp] theorem State.item_freeSlot (s : State) (n : Handle) (m : ItemId) : (s.freeSlot n).item m = s.item m := rfl
@[simp] theorem State.batch_freeSlot (s : State) (n : Handle) (m : SlotId) : (s.freeSlot n).batch m = s.batch m := rfl
@[simp] theorem State.factor_freeSlot (s : State) (n : Handle) (m : StandId) : (s.freeSlot n).factor m = s.factor m := rfl
@[simp] theorem State.ticketRec_freeSlot (s : State) (n : Handle) (m : Nat) : (s.freeSlot n).ticketRec m = s.ticketRec m := rfl
@[simp] theorem State.ticketAt_freeSlot (s : State) (n : Handle) (m : Nat) : (s.freeSlot n).ticketAt m = s.ticketAt m := rfl
@[simp] theorem State.ticket_freeSlot (s : State) (n : Handle) (m : Tag) : (s.freeSlot n).ticket m = s.ticket m := rfl
@[simp] theorem State.queues_freeSlot (s : State) (n : Handle) (m : StationId) : (s.freeSlot n).queues m = s.queues m := rfl
@[simp] theorem State.link_freeSlot (s : State) (n : Handle) (m : StationId) : (s.freeSlot n).link m = s.link m := rfl
@[simp] theorem State.pace_freeSlot (s : State) (n : Handle) (m : StandId) : (s.freeSlot n).pace m = s.pace m := rfl
@[simp] theorem State.demand_freeSlot (s : State) (n : Handle) (m : SlotId) : (s.freeSlot n).demand m = s.demand m := rfl
@[simp] theorem State.byteAt_freeSlot (s : State) (n : Handle) (m : Nat) : (s.freeSlot n).byteAt m = s.byteAt m := rfl

@[simp] theorem State.stand_setItem (s : State) (n : ItemId) (v : Item) (m : StandId) : (s.setItem n v).stand m = s.stand m := rfl
@[simp] theorem State.till_setItem (s : State) (n : ItemId) (v : Item) (m : Nat) : (s.setItem n v).till m = s.till m := rfl
@[simp] theorem State.checkSlot_setItem (s : State) (n : ItemId) (v : Item) (m : BitVec 10) : (s.setItem n v).checkSlot m = s.checkSlot m := rfl
@[simp] theorem State.check_setItem (s : State) (n : ItemId) (v : Item) (m : Handle) : (s.setItem n v).check m = s.check m := rfl
@[simp] theorem State.line_setItem (s : State) (n : ItemId) (v : Item) (m : LineRef) : (s.setItem n v).line m = s.line m := rfl
@[simp] theorem State.batch_setItem (s : State) (n : ItemId) (v : Item) (m : SlotId) : (s.setItem n v).batch m = s.batch m := rfl
@[simp] theorem State.factor_setItem (s : State) (n : ItemId) (v : Item) (m : StandId) : (s.setItem n v).factor m = s.factor m := rfl
@[simp] theorem State.ticketRec_setItem (s : State) (n : ItemId) (v : Item) (m : Nat) : (s.setItem n v).ticketRec m = s.ticketRec m := rfl
@[simp] theorem State.ticketAt_setItem (s : State) (n : ItemId) (v : Item) (m : Nat) : (s.setItem n v).ticketAt m = s.ticketAt m := rfl
@[simp] theorem State.ticket_setItem (s : State) (n : ItemId) (v : Item) (m : Tag) : (s.setItem n v).ticket m = s.ticket m := rfl
@[simp] theorem State.queues_setItem (s : State) (n : ItemId) (v : Item) (m : StationId) : (s.setItem n v).queues m = s.queues m := rfl
@[simp] theorem State.link_setItem (s : State) (n : ItemId) (v : Item) (m : StationId) : (s.setItem n v).link m = s.link m := rfl
@[simp] theorem State.pace_setItem (s : State) (n : ItemId) (v : Item) (m : StandId) : (s.setItem n v).pace m = s.pace m := rfl
@[simp] theorem State.demand_setItem (s : State) (n : ItemId) (v : Item) (m : SlotId) : (s.setItem n v).demand m = s.demand m := rfl
@[simp] theorem State.byteAt_setItem (s : State) (n : ItemId) (v : Item) (m : Nat) : (s.setItem n v).byteAt m = s.byteAt m := rfl

@[simp] theorem State.stand_setBatch (s : State) (n : SlotId) (v : Batch) (m : StandId) : (s.setBatch n v).stand m = s.stand m := rfl
@[simp] theorem State.till_setBatch (s : State) (n : SlotId) (v : Batch) (m : Nat) : (s.setBatch n v).till m = s.till m := rfl
@[simp] theorem State.checkSlot_setBatch (s : State) (n : SlotId) (v : Batch) (m : BitVec 10) : (s.setBatch n v).checkSlot m = s.checkSlot m := rfl
@[simp] theorem State.check_setBatch (s : State) (n : SlotId) (v : Batch) (m : Handle) : (s.setBatch n v).check m = s.check m := rfl
@[simp] theorem State.line_setBatch (s : State) (n : SlotId) (v : Batch) (m : LineRef) : (s.setBatch n v).line m = s.line m := rfl
@[simp] theorem State.item_setBatch (s : State) (n : SlotId) (v : Batch) (m : ItemId) : (s.setBatch n v).item m = s.item m := rfl
@[simp] theorem State.factor_setBatch (s : State) (n : SlotId) (v : Batch) (m : StandId) : (s.setBatch n v).factor m = s.factor m := rfl
@[simp] theorem State.ticketRec_setBatch (s : State) (n : SlotId) (v : Batch) (m : Nat) : (s.setBatch n v).ticketRec m = s.ticketRec m := rfl
@[simp] theorem State.ticketAt_setBatch (s : State) (n : SlotId) (v : Batch) (m : Nat) : (s.setBatch n v).ticketAt m = s.ticketAt m := rfl
@[simp] theorem State.ticket_setBatch (s : State) (n : SlotId) (v : Batch) (m : Tag) : (s.setBatch n v).ticket m = s.ticket m := rfl
@[simp] theorem State.queues_setBatch (s : State) (n : SlotId) (v : Batch) (m : StationId) : (s.setBatch n v).queues m = s.queues m := rfl
@[simp] theorem State.link_setBatch (s : State) (n : SlotId) (v : Batch) (m : StationId) : (s.setBatch n v).link m = s.link m := rfl
@[simp] theorem State.pace_setBatch (s : State) (n : SlotId) (v : Batch) (m : StandId) : (s.setBatch n v).pace m = s.pace m := rfl
@[simp] theorem State.demand_setBatch (s : State) (n : SlotId) (v : Batch) (m : SlotId) : (s.setBatch n v).demand m = s.demand m := rfl
@[simp] theorem State.byteAt_setBatch (s : State) (n : SlotId) (v : Batch) (m : Nat) : (s.setBatch n v).byteAt m = s.byteAt m := rfl

@[simp] theorem State.stand_setFactor (s : State) (n : StandId) (v : Level) (m : StandId) : (s.setFactor n v).stand m = s.stand m := rfl
@[simp] theorem State.till_setFactor (s : State) (n : StandId) (v : Level) (m : Nat) : (s.setFactor n v).till m = s.till m := rfl
@[simp] theorem State.checkSlot_setFactor (s : State) (n : StandId) (v : Level) (m : BitVec 10) : (s.setFactor n v).checkSlot m = s.checkSlot m := rfl
@[simp] theorem State.check_setFactor (s : State) (n : StandId) (v : Level) (m : Handle) : (s.setFactor n v).check m = s.check m := rfl
@[simp] theorem State.line_setFactor (s : State) (n : StandId) (v : Level) (m : LineRef) : (s.setFactor n v).line m = s.line m := rfl
@[simp] theorem State.item_setFactor (s : State) (n : StandId) (v : Level) (m : ItemId) : (s.setFactor n v).item m = s.item m := rfl
@[simp] theorem State.batch_setFactor (s : State) (n : StandId) (v : Level) (m : SlotId) : (s.setFactor n v).batch m = s.batch m := rfl
@[simp] theorem State.ticketRec_setFactor (s : State) (n : StandId) (v : Level) (m : Nat) : (s.setFactor n v).ticketRec m = s.ticketRec m := rfl
@[simp] theorem State.ticketAt_setFactor (s : State) (n : StandId) (v : Level) (m : Nat) : (s.setFactor n v).ticketAt m = s.ticketAt m := rfl
@[simp] theorem State.ticket_setFactor (s : State) (n : StandId) (v : Level) (m : Tag) : (s.setFactor n v).ticket m = s.ticket m := rfl
@[simp] theorem State.queues_setFactor (s : State) (n : StandId) (v : Level) (m : StationId) : (s.setFactor n v).queues m = s.queues m := rfl
@[simp] theorem State.link_setFactor (s : State) (n : StandId) (v : Level) (m : StationId) : (s.setFactor n v).link m = s.link m := rfl
@[simp] theorem State.pace_setFactor (s : State) (n : StandId) (v : Level) (m : StandId) : (s.setFactor n v).pace m = s.pace m := rfl
@[simp] theorem State.demand_setFactor (s : State) (n : StandId) (v : Level) (m : SlotId) : (s.setFactor n v).demand m = s.demand m := rfl
@[simp] theorem State.byteAt_setFactor (s : State) (n : StandId) (v : Level) (m : Nat) : (s.setFactor n v).byteAt m = s.byteAt m := rfl

@[simp] theorem State.stand_setTicketRec (s : State) (n : Nat) (v : TicketRec) (m : StandId) : (s.setTicketRec n v).stand m = s.stand m := rfl
@[simp] theorem State.till_setTicketRec (s : State) (n : Nat) (v : TicketRec) (m : Nat) : (s.setTicketRec n v).till m = s.till m := rfl
@[simp] theorem State.checkSlot_setTicketRec (s : State) (n : Nat) (v : TicketRec) (m : BitVec 10) : (s.setTicketRec n v).checkSlot m = s.checkSlot m := rfl
@[simp] theorem State.check_setTicketRec (s : State) (n : Nat) (v : TicketRec) (m : Handle) : (s.setTicketRec n v).check m = s.check m := rfl
@[simp] theorem State.line_setTicketRec (s : State) (n : Nat) (v : TicketRec) (m : LineRef) : (s.setTicketRec n v).line m = s.line m := rfl
@[simp] theorem State.item_setTicketRec (s : State) (n : Nat) (v : TicketRec) (m : ItemId) : (s.setTicketRec n v).item m = s.item m := rfl
@[simp] theorem State.batch_setTicketRec (s : State) (n : Nat) (v : TicketRec) (m : SlotId) : (s.setTicketRec n v).batch m = s.batch m := rfl
@[simp] theorem State.factor_setTicketRec (s : State) (n : Nat) (v : TicketRec) (m : StandId) : (s.setTicketRec n v).factor m = s.factor m := rfl
@[simp] theorem State.queues_setTicketRec (s : State) (n : Nat) (v : TicketRec) (m : StationId) : (s.setTicketRec n v).queues m = s.queues m := rfl
@[simp] theorem State.link_setTicketRec (s : State) (n : Nat) (v : TicketRec) (m : StationId) : (s.setTicketRec n v).link m = s.link m := rfl
@[simp] theorem State.pace_setTicketRec (s : State) (n : Nat) (v : TicketRec) (m : StandId) : (s.setTicketRec n v).pace m = s.pace m := rfl
@[simp] theorem State.demand_setTicketRec (s : State) (n : Nat) (v : TicketRec) (m : SlotId) : (s.setTicketRec n v).demand m = s.demand m := rfl
@[simp] theorem State.byteAt_setTicketRec (s : State) (n : Nat) (v : TicketRec) (m : Nat) : (s.setTicketRec n v).byteAt m = s.byteAt m := rfl

@[simp] theorem State.stand_setTicketAt (s : State) (n : Nat) (v : Ticket) (m : StandId) : (s.setTicketAt n v).stand m = s.stand m := rfl
@[simp] theorem State.till_setTicketAt (s : State) (n : Nat) (v : Ticket) (m : Nat) : (s.setTicketAt n v).till m = s.till m := rfl
@[simp] theorem State.checkSlot_setTicketAt (s : State) (n : Nat) (v : Ticket) (m : BitVec 10) : (s.setTicketAt n v).checkSlot m = s.checkSlot m := rfl
@[simp] theorem State.check_setTicketAt (s : State) (n : Nat) (v : Ticket) (m : Handle) : (s.setTicketAt n v).check m = s.check m := rfl
@[simp] theorem State.line_setTicketAt (s : State) (n : Nat) (v : Ticket) (m : LineRef) : (s.setTicketAt n v).line m = s.line m := rfl
@[simp] theorem State.item_setTicketAt (s : State) (n : Nat) (v : Ticket) (m : ItemId) : (s.setTicketAt n v).item m = s.item m := rfl
@[simp] theorem State.batch_setTicketAt (s : State) (n : Nat) (v : Ticket) (m : SlotId) : (s.setTicketAt n v).batch m = s.batch m := rfl
@[simp] theorem State.factor_setTicketAt (s : State) (n : Nat) (v : Ticket) (m : StandId) : (s.setTicketAt n v).factor m = s.factor m := rfl
@[simp] theorem State.queues_setTicketAt (s : State) (n : Nat) (v : Ticket) (m : StationId) : (s.setTicketAt n v).queues m = s.queues m := rfl
@[simp] theorem State.link_setTicketAt (s : State) (n : Nat) (v : Ticket) (m : StationId) : (s.setTicketAt n v).link m = s.link m := rfl
@[simp] theorem State.pace_setTicketAt (s : State) (n : Nat) (v : Ticket) (m : StandId) : (s.setTicketAt n v).pace m = s.pace m := rfl
@[simp] theorem State.demand_setTicketAt (s : State) (n : Nat) (v : Ticket) (m : SlotId) : (s.setTicketAt n v).demand m = s.demand m := rfl
@[simp] theorem State.byteAt_setTicketAt (s : State) (n : Nat) (v : Ticket) (m : Nat) : (s.setTicketAt n v).byteAt m = s.byteAt m := rfl

@[simp] theorem State.stand_freeRecord (s : State) (n : Nat) (m : StandId) : (s.freeRecord n).stand m = s.stand m := rfl
@[simp] theorem State.till_freeRecord (s : State) (n : Nat) (m : Nat) : (s.freeRecord n).till m = s.till m := rfl
@[simp] theorem State.checkSlot_freeRecord (s : State) (n : Nat) (m : BitVec 10) : (s.freeRecord n).checkSlot m = s.checkSlot m := rfl
@[simp] theorem State.check_freeRecord (s : State) (n : Nat) (m : Handle) : (s.freeRecord n).check m = s.check m := rfl
@[simp] theorem State.line_freeRecord (s : State) (n : Nat) (m : LineRef) : (s.freeRecord n).line m = s.line m := rfl
@[simp] theorem State.item_freeRecord (s : State) (n : Nat) (m : ItemId) : (s.freeRecord n).item m = s.item m := rfl
@[simp] theorem State.batch_freeRecord (s : State) (n : Nat) (m : SlotId) : (s.freeRecord n).batch m = s.batch m := rfl
@[simp] theorem State.factor_freeRecord (s : State) (n : Nat) (m : StandId) : (s.freeRecord n).factor m = s.factor m := rfl
@[simp] theorem State.queues_freeRecord (s : State) (n : Nat) (m : StationId) : (s.freeRecord n).queues m = s.queues m := rfl
@[simp] theorem State.link_freeRecord (s : State) (n : Nat) (m : StationId) : (s.freeRecord n).link m = s.link m := rfl
@[simp] theorem State.pace_freeRecord (s : State) (n : Nat) (m : StandId) : (s.freeRecord n).pace m = s.pace m := rfl
@[simp] theorem State.demand_freeRecord (s : State) (n : Nat) (m : SlotId) : (s.freeRecord n).demand m = s.demand m := rfl
@[simp] theorem State.byteAt_freeRecord (s : State) (n : Nat) (m : Nat) : (s.freeRecord n).byteAt m = s.byteAt m := rfl

@[simp] theorem State.stand_setQueues (s : State) (n : StationId) (v : Queues) (m : StandId) : (s.setQueues n v).stand m = s.stand m := rfl
@[simp] theorem State.till_setQueues (s : State) (n : StationId) (v : Queues) (m : Nat) : (s.setQueues n v).till m = s.till m := rfl
@[simp] theorem State.checkSlot_setQueues (s : State) (n : StationId) (v : Queues) (m : BitVec 10) : (s.setQueues n v).checkSlot m = s.checkSlot m := rfl
@[simp] theorem State.check_setQueues (s : State) (n : StationId) (v : Queues) (m : Handle) : (s.setQueues n v).check m = s.check m := rfl
@[simp] theorem State.line_setQueues (s : State) (n : StationId) (v : Queues) (m : LineRef) : (s.setQueues n v).line m = s.line m := rfl
@[simp] theorem State.item_setQueues (s : State) (n : StationId) (v : Queues) (m : ItemId) : (s.setQueues n v).item m = s.item m := rfl
@[simp] theorem State.batch_setQueues (s : State) (n : StationId) (v : Queues) (m : SlotId) : (s.setQueues n v).batch m = s.batch m := rfl
@[simp] theorem State.factor_setQueues (s : State) (n : StationId) (v : Queues) (m : StandId) : (s.setQueues n v).factor m = s.factor m := rfl
@[simp] theorem State.ticketRec_setQueues (s : State) (n : StationId) (v : Queues) (m : Nat) : (s.setQueues n v).ticketRec m = s.ticketRec m := rfl
@[simp] theorem State.ticketAt_setQueues (s : State) (n : StationId) (v : Queues) (m : Nat) : (s.setQueues n v).ticketAt m = s.ticketAt m := rfl
@[simp] theorem State.ticket_setQueues (s : State) (n : StationId) (v : Queues) (m : Tag) : (s.setQueues n v).ticket m = s.ticket m := rfl
@[simp] theorem State.link_setQueues (s : State) (n : StationId) (v : Queues) (m : StationId) : (s.setQueues n v).link m = s.link m := rfl
@[simp] theorem State.pace_setQueues (s : State) (n : StationId) (v : Queues) (m : StandId) : (s.setQueues n v).pace m = s.pace m := rfl
@[simp] theorem State.demand_setQueues (s : State) (n : StationId) (v : Queues) (m : SlotId) : (s.setQueues n v).demand m = s.demand m := rfl
@[simp] theorem State.byteAt_setQueues (s : State) (n : StationId) (v : Queues) (m : Nat) : (s.setQueues n v).byteAt m = s.byteAt m := rfl

@[simp] theorem State.stand_setLink (s : State) (n : StationId) (v : Link) (m : StandId) : (s.setLink n v).stand m = s.stand m := rfl
@[simp] theorem State.till_setLink (s : State) (n : StationId) (v : Link) (m : Nat) : (s.setLink n v).till m = s.till m := rfl
@[simp] theorem State.checkSlot_setLink (s : State) (n : StationId) (v : Link) (m : BitVec 10) : (s.setLink n v).checkSlot m = s.checkSlot m := rfl
@[simp] theorem State.check_setLink (s : State) (n : StationId) (v : Link) (m : Handle) : (s.setLink n v).check m = s.check m := rfl
@[simp] theorem State.line_setLink (s : State) (n : StationId) (v : Link) (m : LineRef) : (s.setLink n v).line m = s.line m := rfl
@[simp] theorem State.item_setLink (s : State) (n : StationId) (v : Link) (m : ItemId) : (s.setLink n v).item m = s.item m := rfl
@[simp] theorem State.batch_setLink (s : State) (n : StationId) (v : Link) (m : SlotId) : (s.setLink n v).batch m = s.batch m := rfl
@[simp] theorem State.factor_setLink (s : State) (n : StationId) (v : Link) (m : StandId) : (s.setLink n v).factor m = s.factor m := rfl
@[simp] theorem State.ticketRec_setLink (s : State) (n : StationId) (v : Link) (m : Nat) : (s.setLink n v).ticketRec m = s.ticketRec m := rfl
@[simp] theorem State.ticketAt_setLink (s : State) (n : StationId) (v : Link) (m : Nat) : (s.setLink n v).ticketAt m = s.ticketAt m := rfl
@[simp] theorem State.ticket_setLink (s : State) (n : StationId) (v : Link) (m : Tag) : (s.setLink n v).ticket m = s.ticket m := rfl
@[simp] theorem State.queues_setLink (s : State) (n : StationId) (v : Link) (m : StationId) : (s.setLink n v).queues m = s.queues m := rfl
@[simp] theorem State.pace_setLink (s : State) (n : StationId) (v : Link) (m : StandId) : (s.setLink n v).pace m = s.pace m := rfl
@[simp] theorem State.demand_setLink (s : State) (n : StationId) (v : Link) (m : SlotId) : (s.setLink n v).demand m = s.demand m := rfl
@[simp] theorem State.byteAt_setLink (s : State) (n : StationId) (v : Link) (m : Nat) : (s.setLink n v).byteAt m = s.byteAt m := rfl

@[simp] theorem State.stand_setPace (s : State) (n : StandId) (v : Pace) (m : StandId) : (s.setPace n v).stand m = s.stand m := rfl
@[simp] theorem State.till_setPace (s : State) (n : StandId) (v : Pace) (m : Nat) : (s.setPace n v).till m = s.till m := rfl
@[simp] theorem State.checkSlot_setPace (s : State) (n : StandId) (v : Pace) (m : BitVec 10) : (s.setPace n v).checkSlot m = s.checkSlot m := rfl
@[simp] theorem State.check_setPace (s : State) (n : StandId) (v : Pace) (m : Handle) : (s.setPace n v).check m = s.check m := rfl
@[simp] theorem State.line_setPace (s : State) (n : StandId) (v : Pace) (m : LineRef) : (s.setPace n v).line m = s.line m := rfl
@[simp] theorem State.item_setPace (s : State) (n : StandId) (v : Pace) (m : ItemId) : (s.setPace n v).item m = s.item m := rfl
@[simp] theorem State.batch_setPace (s : State) (n : StandId) (v : Pace) (m : SlotId) : (s.setPace n v).batch m = s.batch m := rfl
@[simp] theorem State.factor_setPace (s : State) (n : StandId) (v : Pace) (m : StandId) : (s.setPace n v).factor m = s.factor m := rfl
@[simp] theorem State.ticketRec_setPace (s : State) (n : StandId) (v : Pace) (m : Nat) : (s.setPace n v).ticketRec m = s.ticketRec m := rfl
@[simp] theorem State.ticketAt_setPace (s : State) (n : StandId) (v : Pace) (m : Nat) : (s.setPace n v).ticketAt m = s.ticketAt m := rfl
@[simp] theorem State.ticket_setPace (s : State) (n : StandId) (v : Pace) (m : Tag) : (s.setPace n v).ticket m = s.ticket m := rfl
@[simp] theorem State.queues_setPace (s : State) (n : StandId) (v : Pace) (m : StationId) : (s.setPace n v).queues m = s.queues m := rfl
@[simp] theorem State.link_setPace (s : State) (n : StandId) (v : Pace) (m : StationId) : (s.setPace n v).link m = s.link m := rfl
@[simp] theorem State.demand_setPace (s : State) (n : StandId) (v : Pace) (m : SlotId) : (s.setPace n v).demand m = s.demand m := rfl
@[simp] theorem State.byteAt_setPace (s : State) (n : StandId) (v : Pace) (m : Nat) : (s.setPace n v).byteAt m = s.byteAt m := rfl

@[simp] theorem State.stand_setDemand (s : State) (n : SlotId) (v : Filter) (m : StandId) : (s.setDemand n v).stand m = s.stand m := rfl
@[simp] theorem State.till_setDemand (s : State) (n : SlotId) (v : Filter) (m : Nat) : (s.setDemand n v).till m = s.till m := rfl
@[simp] theorem State.checkSlot_setDemand (s : State) (n : SlotId) (v : Filter) (m : BitVec 10) : (s.setDemand n v).checkSlot m = s.checkSlot m := rfl
@[simp] theorem State.check_setDemand (s : State) (n : SlotId) (v : Filter) (m : Handle) : (s.setDemand n v).check m = s.check m := rfl
@[simp] theorem State.line_setDemand (s : State) (n : SlotId) (v : Filter) (m : LineRef) : (s.setDemand n v).line m = s.line m := rfl
@[simp] theorem State.item_setDemand (s : State) (n : SlotId) (v : Filter) (m : ItemId) : (s.setDemand n v).item m = s.item m := rfl
@[simp] theorem State.batch_setDemand (s : State) (n : SlotId) (v : Filter) (m : SlotId) : (s.setDemand n v).batch m = s.batch m := rfl
@[simp] theorem State.factor_setDemand (s : State) (n : SlotId) (v : Filter) (m : StandId) : (s.setDemand n v).factor m = s.factor m := rfl
@[simp] theorem State.ticketRec_setDemand (s : State) (n : SlotId) (v : Filter) (m : Nat) : (s.setDemand n v).ticketRec m = s.ticketRec m := rfl
@[simp] theorem State.ticketAt_setDemand (s : State) (n : SlotId) (v : Filter) (m : Nat) : (s.setDemand n v).ticketAt m = s.ticketAt m := rfl
@[simp] theorem State.ticket_setDemand (s : State) (n : SlotId) (v : Filter) (m : Tag) : (s.setDemand n v).ticket m = s.ticket m := rfl
@[simp] theorem State.queues_setDemand (s : State) (n : SlotId) (v : Filter) (m : StationId) : (s.setDemand n v).queues m = s.queues m := rfl
@[simp] theorem State.link_setDemand (s : State) (n : SlotId) (v : Filter) (m : StationId) : (s.setDemand n v).link m = s.link m := rfl
@[simp] theorem State.pace_setDemand (s : State) (n : SlotId) (v : Filter) (m : StandId) : (s.setDemand n v).pace m = s.pace m := rfl
@[simp] theorem State.byteAt_setDemand (s : State) (n : SlotId) (v : Filter) (m : Nat) : (s.setDemand n v).byteAt m = s.byteAt m := rfl

@[simp] theorem State.stand_setByte (s : State) (a : Nat) (b : Byte) (m : StandId) : (s.setByte a b).stand m = s.stand m := rfl
@[simp] theorem State.till_setByte (s : State) (a : Nat) (b : Byte) (m : Nat) : (s.setByte a b).till m = s.till m := rfl
@[simp] theorem State.checkSlot_setByte (s : State) (a : Nat) (b : Byte) (m : BitVec 10) : (s.setByte a b).checkSlot m = s.checkSlot m := rfl
@[simp] theorem State.check_setByte (s : State) (a : Nat) (b : Byte) (m : Handle) : (s.setByte a b).check m = s.check m := rfl
@[simp] theorem State.line_setByte (s : State) (a : Nat) (b : Byte) (m : LineRef) : (s.setByte a b).line m = s.line m := rfl
@[simp] theorem State.item_setByte (s : State) (a : Nat) (b : Byte) (m : ItemId) : (s.setByte a b).item m = s.item m := rfl
@[simp] theorem State.batch_setByte (s : State) (a : Nat) (b : Byte) (m : SlotId) : (s.setByte a b).batch m = s.batch m := rfl
@[simp] theorem State.factor_setByte (s : State) (a : Nat) (b : Byte) (m : StandId) : (s.setByte a b).factor m = s.factor m := rfl
@[simp] theorem State.ticketRec_setByte (s : State) (a : Nat) (b : Byte) (m : Nat) : (s.setByte a b).ticketRec m = s.ticketRec m := rfl
@[simp] theorem State.ticketAt_setByte (s : State) (a : Nat) (b : Byte) (m : Nat) : (s.setByte a b).ticketAt m = s.ticketAt m := rfl
@[simp] theorem State.ticket_setByte (s : State) (a : Nat) (b : Byte) (m : Tag) : (s.setByte a b).ticket m = s.ticket m := rfl
@[simp] theorem State.queues_setByte (s : State) (a : Nat) (b : Byte) (m : StationId) : (s.setByte a b).queues m = s.queues m := rfl
@[simp] theorem State.link_setByte (s : State) (a : Nat) (b : Byte) (m : StationId) : (s.setByte a b).link m = s.link m := rfl
@[simp] theorem State.pace_setByte (s : State) (a : Nat) (b : Byte) (m : StandId) : (s.setByte a b).pace m = s.pace m := rfl
@[simp] theorem State.demand_setByte (s : State) (a : Nat) (b : Byte) (m : SlotId) : (s.setByte a b).demand m = s.demand m := rfl

@[simp] theorem State.stand_advance (s : State) (n : Nat) (m : StandId) : (s.advance n).stand m = s.stand m := rfl
@[simp] theorem State.till_advance (s : State) (n : Nat) (m : Nat) : (s.advance n).till m = s.till m := rfl
@[simp] theorem State.checkSlot_advance (s : State) (n : Nat) (m : BitVec 10) : (s.advance n).checkSlot m = s.checkSlot m := rfl
@[simp] theorem State.check_advance (s : State) (n : Nat) (m : Handle) : (s.advance n).check m = s.check m := rfl
@[simp] theorem State.line_advance (s : State) (n : Nat) (m : LineRef) : (s.advance n).line m = s.line m := rfl
@[simp] theorem State.item_advance (s : State) (n : Nat) (m : ItemId) : (s.advance n).item m = s.item m := rfl
@[simp] theorem State.batch_advance (s : State) (n : Nat) (m : SlotId) : (s.advance n).batch m = s.batch m := rfl
@[simp] theorem State.factor_advance (s : State) (n : Nat) (m : StandId) : (s.advance n).factor m = s.factor m := rfl
@[simp] theorem State.ticketRec_advance (s : State) (n : Nat) (m : Nat) : (s.advance n).ticketRec m = s.ticketRec m := rfl
@[simp] theorem State.ticketAt_advance (s : State) (n : Nat) (m : Nat) : (s.advance n).ticketAt m = s.ticketAt m := rfl
@[simp] theorem State.ticket_advance (s : State) (n : Nat) (m : Tag) : (s.advance n).ticket m = s.ticket m := rfl
@[simp] theorem State.queues_advance (s : State) (n : Nat) (m : StationId) : (s.advance n).queues m = s.queues m := rfl
@[simp] theorem State.link_advance (s : State) (n : Nat) (m : StationId) : (s.advance n).link m = s.link m := rfl
@[simp] theorem State.pace_advance (s : State) (n : Nat) (m : StandId) : (s.advance n).pace m = s.pace m := rfl
@[simp] theorem State.demand_advance (s : State) (n : Nat) (m : SlotId) : (s.advance n).demand m = s.demand m := rfl
@[simp] theorem State.byteAt_advance (s : State) (n : Nat) (m : Nat) : (s.advance n).byteAt m = s.byteAt m := rfl

@[simp] theorem State.stand_hand (s : State) (c : Instr) (m : StandId) : (s.hand c).stand m = s.stand m := rfl
@[simp] theorem State.till_hand (s : State) (c : Instr) (m : Nat) : (s.hand c).till m = s.till m := rfl
@[simp] theorem State.checkSlot_hand (s : State) (c : Instr) (m : BitVec 10) : (s.hand c).checkSlot m = s.checkSlot m := rfl
@[simp] theorem State.check_hand (s : State) (c : Instr) (m : Handle) : (s.hand c).check m = s.check m := rfl
@[simp] theorem State.line_hand (s : State) (c : Instr) (m : LineRef) : (s.hand c).line m = s.line m := rfl
@[simp] theorem State.item_hand (s : State) (c : Instr) (m : ItemId) : (s.hand c).item m = s.item m := rfl
@[simp] theorem State.batch_hand (s : State) (c : Instr) (m : SlotId) : (s.hand c).batch m = s.batch m := rfl
@[simp] theorem State.factor_hand (s : State) (c : Instr) (m : StandId) : (s.hand c).factor m = s.factor m := rfl
@[simp] theorem State.ticketRec_hand (s : State) (c : Instr) (m : Nat) : (s.hand c).ticketRec m = s.ticketRec m := rfl
@[simp] theorem State.ticketAt_hand (s : State) (c : Instr) (m : Nat) : (s.hand c).ticketAt m = s.ticketAt m := rfl
@[simp] theorem State.ticket_hand (s : State) (c : Instr) (m : Tag) : (s.hand c).ticket m = s.ticket m := rfl
@[simp] theorem State.queues_hand (s : State) (c : Instr) (m : StationId) : (s.hand c).queues m = s.queues m := rfl
@[simp] theorem State.link_hand (s : State) (c : Instr) (m : StationId) : (s.hand c).link m = s.link m := rfl
@[simp] theorem State.pace_hand (s : State) (c : Instr) (m : StandId) : (s.hand c).pace m = s.pace m := rfl
@[simp] theorem State.demand_hand (s : State) (c : Instr) (m : SlotId) : (s.hand c).demand m = s.demand m := rfl
@[simp] theorem State.byteAt_hand (s : State) (c : Instr) (m : Nat) : (s.hand c).byteAt m = s.byteAt m := rfl

@[simp] theorem State.stand_handAll (s : State) (cs : List Instr) (m : StandId) : (s.handAll cs).stand m = s.stand m := rfl
@[simp] theorem State.till_handAll (s : State) (cs : List Instr) (m : Nat) : (s.handAll cs).till m = s.till m := rfl
@[simp] theorem State.checkSlot_handAll (s : State) (cs : List Instr) (m : BitVec 10) : (s.handAll cs).checkSlot m = s.checkSlot m := rfl
@[simp] theorem State.check_handAll (s : State) (cs : List Instr) (m : Handle) : (s.handAll cs).check m = s.check m := rfl
@[simp] theorem State.line_handAll (s : State) (cs : List Instr) (m : LineRef) : (s.handAll cs).line m = s.line m := rfl
@[simp] theorem State.item_handAll (s : State) (cs : List Instr) (m : ItemId) : (s.handAll cs).item m = s.item m := rfl
@[simp] theorem State.batch_handAll (s : State) (cs : List Instr) (m : SlotId) : (s.handAll cs).batch m = s.batch m := rfl
@[simp] theorem State.factor_handAll (s : State) (cs : List Instr) (m : StandId) : (s.handAll cs).factor m = s.factor m := rfl
@[simp] theorem State.ticketRec_handAll (s : State) (cs : List Instr) (m : Nat) : (s.handAll cs).ticketRec m = s.ticketRec m := rfl
@[simp] theorem State.ticketAt_handAll (s : State) (cs : List Instr) (m : Nat) : (s.handAll cs).ticketAt m = s.ticketAt m := rfl
@[simp] theorem State.ticket_handAll (s : State) (cs : List Instr) (m : Tag) : (s.handAll cs).ticket m = s.ticket m := rfl
@[simp] theorem State.queues_handAll (s : State) (cs : List Instr) (m : StationId) : (s.handAll cs).queues m = s.queues m := rfl
@[simp] theorem State.link_handAll (s : State) (cs : List Instr) (m : StationId) : (s.handAll cs).link m = s.link m := rfl
@[simp] theorem State.pace_handAll (s : State) (cs : List Instr) (m : StandId) : (s.handAll cs).pace m = s.pace m := rfl
@[simp] theorem State.demand_handAll (s : State) (cs : List Instr) (m : SlotId) : (s.handAll cs).demand m = s.demand m := rfl
@[simp] theorem State.byteAt_handAll (s : State) (cs : List Instr) (m : Nat) : (s.handAll cs).byteAt m = s.byteAt m := rfl

@[simp] theorem State.stand_taken (s : State) (c : Instr) (m : StandId) : (s.taken c).stand m = s.stand m := rfl
@[simp] theorem State.till_taken (s : State) (c : Instr) (m : Nat) : (s.taken c).till m = s.till m := rfl
@[simp] theorem State.checkSlot_taken (s : State) (c : Instr) (m : BitVec 10) : (s.taken c).checkSlot m = s.checkSlot m := rfl
@[simp] theorem State.check_taken (s : State) (c : Instr) (m : Handle) : (s.taken c).check m = s.check m := rfl
@[simp] theorem State.line_taken (s : State) (c : Instr) (m : LineRef) : (s.taken c).line m = s.line m := rfl
@[simp] theorem State.item_taken (s : State) (c : Instr) (m : ItemId) : (s.taken c).item m = s.item m := rfl
@[simp] theorem State.batch_taken (s : State) (c : Instr) (m : SlotId) : (s.taken c).batch m = s.batch m := rfl
@[simp] theorem State.factor_taken (s : State) (c : Instr) (m : StandId) : (s.taken c).factor m = s.factor m := rfl
@[simp] theorem State.ticketRec_taken (s : State) (c : Instr) (m : Nat) : (s.taken c).ticketRec m = s.ticketRec m := rfl
@[simp] theorem State.ticketAt_taken (s : State) (c : Instr) (m : Nat) : (s.taken c).ticketAt m = s.ticketAt m := rfl
@[simp] theorem State.ticket_taken (s : State) (c : Instr) (m : Tag) : (s.taken c).ticket m = s.ticket m := rfl
@[simp] theorem State.queues_taken (s : State) (c : Instr) (m : StationId) : (s.taken c).queues m = s.queues m := rfl
@[simp] theorem State.link_taken (s : State) (c : Instr) (m : StationId) : (s.taken c).link m = s.link m := rfl
@[simp] theorem State.pace_taken (s : State) (c : Instr) (m : StandId) : (s.taken c).pace m = s.pace m := rfl
@[simp] theorem State.demand_taken (s : State) (c : Instr) (m : SlotId) : (s.taken c).demand m = s.demand m := rfl
@[simp] theorem State.byteAt_taken (s : State) (c : Instr) (m : Nat) : (s.taken c).byteAt m = s.byteAt m := rfl

@[simp] theorem State.stand_raise (s : State) (k : NoticeKind) (w : Word) (vs : List Word) (m : StandId) : (s.raise k w vs).stand m = s.stand m := rfl
@[simp] theorem State.till_raise (s : State) (k : NoticeKind) (w : Word) (vs : List Word) (m : Nat) : (s.raise k w vs).till m = s.till m := rfl
@[simp] theorem State.checkSlot_raise (s : State) (k : NoticeKind) (w : Word) (vs : List Word) (m : BitVec 10) : (s.raise k w vs).checkSlot m = s.checkSlot m := rfl
@[simp] theorem State.check_raise (s : State) (k : NoticeKind) (w : Word) (vs : List Word) (m : Handle) : (s.raise k w vs).check m = s.check m := rfl
@[simp] theorem State.line_raise (s : State) (k : NoticeKind) (w : Word) (vs : List Word) (m : LineRef) : (s.raise k w vs).line m = s.line m := rfl
@[simp] theorem State.item_raise (s : State) (k : NoticeKind) (w : Word) (vs : List Word) (m : ItemId) : (s.raise k w vs).item m = s.item m := rfl
@[simp] theorem State.batch_raise (s : State) (k : NoticeKind) (w : Word) (vs : List Word) (m : SlotId) : (s.raise k w vs).batch m = s.batch m := rfl
@[simp] theorem State.factor_raise (s : State) (k : NoticeKind) (w : Word) (vs : List Word) (m : StandId) : (s.raise k w vs).factor m = s.factor m := rfl
@[simp] theorem State.ticketRec_raise (s : State) (k : NoticeKind) (w : Word) (vs : List Word) (m : Nat) : (s.raise k w vs).ticketRec m = s.ticketRec m := rfl
@[simp] theorem State.ticketAt_raise (s : State) (k : NoticeKind) (w : Word) (vs : List Word) (m : Nat) : (s.raise k w vs).ticketAt m = s.ticketAt m := rfl
@[simp] theorem State.ticket_raise (s : State) (k : NoticeKind) (w : Word) (vs : List Word) (m : Tag) : (s.raise k w vs).ticket m = s.ticket m := rfl
@[simp] theorem State.queues_raise (s : State) (k : NoticeKind) (w : Word) (vs : List Word) (m : StationId) : (s.raise k w vs).queues m = s.queues m := rfl
@[simp] theorem State.link_raise (s : State) (k : NoticeKind) (w : Word) (vs : List Word) (m : StationId) : (s.raise k w vs).link m = s.link m := rfl
@[simp] theorem State.pace_raise (s : State) (k : NoticeKind) (w : Word) (vs : List Word) (m : StandId) : (s.raise k w vs).pace m = s.pace m := rfl
@[simp] theorem State.demand_raise (s : State) (k : NoticeKind) (w : Word) (vs : List Word) (m : SlotId) : (s.raise k w vs).demand m = s.demand m := rfl
@[simp] theorem State.byteAt_raise (s : State) (k : NoticeKind) (w : Word) (vs : List Word) (m : Nat) : (s.raise k w vs).byteAt m = s.byteAt m := rfl

@[simp] theorem State.stand_answerWith (s : State) (a : Answer) (m : StandId) : (s.answerWith a).stand m = s.stand m := rfl
@[simp] theorem State.till_answerWith (s : State) (a : Answer) (m : Nat) : (s.answerWith a).till m = s.till m := rfl
@[simp] theorem State.checkSlot_answerWith (s : State) (a : Answer) (m : BitVec 10) : (s.answerWith a).checkSlot m = s.checkSlot m := rfl
@[simp] theorem State.check_answerWith (s : State) (a : Answer) (m : Handle) : (s.answerWith a).check m = s.check m := rfl
@[simp] theorem State.line_answerWith (s : State) (a : Answer) (m : LineRef) : (s.answerWith a).line m = s.line m := rfl
@[simp] theorem State.item_answerWith (s : State) (a : Answer) (m : ItemId) : (s.answerWith a).item m = s.item m := rfl
@[simp] theorem State.batch_answerWith (s : State) (a : Answer) (m : SlotId) : (s.answerWith a).batch m = s.batch m := rfl
@[simp] theorem State.factor_answerWith (s : State) (a : Answer) (m : StandId) : (s.answerWith a).factor m = s.factor m := rfl
@[simp] theorem State.ticketRec_answerWith (s : State) (a : Answer) (m : Nat) : (s.answerWith a).ticketRec m = s.ticketRec m := rfl
@[simp] theorem State.ticketAt_answerWith (s : State) (a : Answer) (m : Nat) : (s.answerWith a).ticketAt m = s.ticketAt m := rfl
@[simp] theorem State.ticket_answerWith (s : State) (a : Answer) (m : Tag) : (s.answerWith a).ticket m = s.ticket m := rfl
@[simp] theorem State.queues_answerWith (s : State) (a : Answer) (m : StationId) : (s.answerWith a).queues m = s.queues m := rfl
@[simp] theorem State.link_answerWith (s : State) (a : Answer) (m : StationId) : (s.answerWith a).link m = s.link m := rfl
@[simp] theorem State.pace_answerWith (s : State) (a : Answer) (m : StandId) : (s.answerWith a).pace m = s.pace m := rfl
@[simp] theorem State.demand_answerWith (s : State) (a : Answer) (m : SlotId) : (s.answerWith a).demand m = s.demand m := rfl
@[simp] theorem State.byteAt_answerWith (s : State) (a : Answer) (m : Nat) : (s.answerWith a).byteAt m = s.byteAt m := rfl

@[simp] theorem State.stand_askAnswered (s : State) (a : AskAnswer) (m : StandId) : (s.askAnswered a).stand m = s.stand m := rfl
@[simp] theorem State.till_askAnswered (s : State) (a : AskAnswer) (m : Nat) : (s.askAnswered a).till m = s.till m := rfl
@[simp] theorem State.checkSlot_askAnswered (s : State) (a : AskAnswer) (m : BitVec 10) : (s.askAnswered a).checkSlot m = s.checkSlot m := rfl
@[simp] theorem State.check_askAnswered (s : State) (a : AskAnswer) (m : Handle) : (s.askAnswered a).check m = s.check m := rfl
@[simp] theorem State.line_askAnswered (s : State) (a : AskAnswer) (m : LineRef) : (s.askAnswered a).line m = s.line m := rfl
@[simp] theorem State.item_askAnswered (s : State) (a : AskAnswer) (m : ItemId) : (s.askAnswered a).item m = s.item m := rfl
@[simp] theorem State.batch_askAnswered (s : State) (a : AskAnswer) (m : SlotId) : (s.askAnswered a).batch m = s.batch m := rfl
@[simp] theorem State.factor_askAnswered (s : State) (a : AskAnswer) (m : StandId) : (s.askAnswered a).factor m = s.factor m := rfl
@[simp] theorem State.ticketRec_askAnswered (s : State) (a : AskAnswer) (m : Nat) : (s.askAnswered a).ticketRec m = s.ticketRec m := rfl
@[simp] theorem State.ticketAt_askAnswered (s : State) (a : AskAnswer) (m : Nat) : (s.askAnswered a).ticketAt m = s.ticketAt m := rfl
@[simp] theorem State.ticket_askAnswered (s : State) (a : AskAnswer) (m : Tag) : (s.askAnswered a).ticket m = s.ticket m := rfl
@[simp] theorem State.queues_askAnswered (s : State) (a : AskAnswer) (m : StationId) : (s.askAnswered a).queues m = s.queues m := rfl
@[simp] theorem State.link_askAnswered (s : State) (a : AskAnswer) (m : StationId) : (s.askAnswered a).link m = s.link m := rfl
@[simp] theorem State.pace_askAnswered (s : State) (a : AskAnswer) (m : StandId) : (s.askAnswered a).pace m = s.pace m := rfl
@[simp] theorem State.demand_askAnswered (s : State) (a : AskAnswer) (m : SlotId) : (s.askAnswered a).demand m = s.demand m := rfl
@[simp] theorem State.byteAt_askAnswered (s : State) (a : AskAnswer) (m : Nat) : (s.askAnswered a).byteAt m = s.byteAt m := rfl

@[simp] theorem State.stand_setFault (s : State) (b : FaultBit) (m : StandId) : (s.setFault b).stand m = s.stand m := rfl
@[simp] theorem State.till_setFault (s : State) (b : FaultBit) (m : Nat) : (s.setFault b).till m = s.till m := rfl
@[simp] theorem State.checkSlot_setFault (s : State) (b : FaultBit) (m : BitVec 10) : (s.setFault b).checkSlot m = s.checkSlot m := rfl
@[simp] theorem State.check_setFault (s : State) (b : FaultBit) (m : Handle) : (s.setFault b).check m = s.check m := rfl
@[simp] theorem State.line_setFault (s : State) (b : FaultBit) (m : LineRef) : (s.setFault b).line m = s.line m := rfl
@[simp] theorem State.item_setFault (s : State) (b : FaultBit) (m : ItemId) : (s.setFault b).item m = s.item m := rfl
@[simp] theorem State.batch_setFault (s : State) (b : FaultBit) (m : SlotId) : (s.setFault b).batch m = s.batch m := rfl
@[simp] theorem State.factor_setFault (s : State) (b : FaultBit) (m : StandId) : (s.setFault b).factor m = s.factor m := rfl
@[simp] theorem State.ticketRec_setFault (s : State) (b : FaultBit) (m : Nat) : (s.setFault b).ticketRec m = s.ticketRec m := rfl
@[simp] theorem State.ticketAt_setFault (s : State) (b : FaultBit) (m : Nat) : (s.setFault b).ticketAt m = s.ticketAt m := rfl
@[simp] theorem State.ticket_setFault (s : State) (b : FaultBit) (m : Tag) : (s.setFault b).ticket m = s.ticket m := rfl
@[simp] theorem State.queues_setFault (s : State) (b : FaultBit) (m : StationId) : (s.setFault b).queues m = s.queues m := rfl
@[simp] theorem State.link_setFault (s : State) (b : FaultBit) (m : StationId) : (s.setFault b).link m = s.link m := rfl
@[simp] theorem State.pace_setFault (s : State) (b : FaultBit) (m : StandId) : (s.setFault b).pace m = s.pace m := rfl
@[simp] theorem State.demand_setFault (s : State) (b : FaultBit) (m : SlotId) : (s.setFault b).demand m = s.demand m := rfl
@[simp] theorem State.byteAt_setFault (s : State) (b : FaultBit) (m : Nat) : (s.setFault b).byteAt m = s.byteAt m := rfl

/-! ### Checks and tickets -/

@[simp] theorem State.check_setCheck_same (s : State) (h : Handle) (c : Check) : (s.setCheck h c).check h = some c := by
  simp [State.check, State.setCheck]

/-- A check set where one was live leaves every other handle as it was. -/
theorem State.check_setCheck_other {s : State} {h g : Handle} {c0 : Check} (c : Check) (hc : s.check h = some c0) (hg : g ≠ h) :
    (s.setCheck h c).check g = s.check g := by
  simp only [State.check, State.setCheck, State.checkSlot_setCheckSlot] at *
  by_cases hs : g.slot = h.slot
  · have hgen : h.gen ≠ g.gen := fun e => hg (by cases g; cases h; simp_all)
    simp only [hs, if_true, hgen, if_false]
    split at hc
    · rename_i e; rw [if_neg (by rw [e]; exact hgen)]
    · cases hc
  · simp [hs]

@[simp] theorem State.ticketAt_setTicketAt (s : State) (i j : Nat) (t : Ticket) :
    (s.setTicketAt i t).ticketAt j = if j = i then some t else s.ticketAt j := by
  simp only [State.ticketAt, State.setTicketAt, State.ticketRec_setTicketRec]; split <;> rfl

@[simp] theorem State.tagAt_setTicketAt (s : State) (i j : Nat) (t : Ticket) : (s.setTicketAt i t).tagAt j = s.tagAt j := by
  simp only [State.tagAt, State.setTicketAt, State.ticketRec_setTicketRec]; split <;> simp_all

@[simp] theorem State.ticketAt_freeRecord (s : State) (i j : Nat) :
    (s.freeRecord i).ticketAt j = if j = i then none else s.ticketAt j := by
  simp only [State.ticketAt, State.freeRecord, State.ticketRec_setTicketRec]; split <;> rfl

/-! ### Host memory -/

/-- A byte written keeps memory canonical. -/
theorem State.setByte_wf {s : State} (a : Nat) (b : Byte) (h : Memory.wf s.mem = true) : Memory.wf (s.setByte a b).mem = true :=
  Table.wf_write a b h

/-- Bytes written keep memory canonical. -/
theorem State.writeBytes_wf {s : State} (l : List Byte) (o : Nat) (h : Memory.wf s.mem = true) :
    Memory.wf (s.writeBytes o l).mem = true := by
  induction l generalizing s o with
  | nil => exact h
  | cons b l ih => exact ih _ (State.setByte_wf _ _ h)

theorem State.reset_mem_wf : Memory.wf State.reset.mem = true := rfl

/-- Bytes written change host memory only. -/
theorem State.writeBytes_eq (s : State) (o : Nat) (l : List Byte) :
    s.writeBytes o l = { s with mem := (s.writeBytes o l).mem } := by
  induction l generalizing s o with
  | nil => rfl
  | cons b l ih => rw [State.writeBytes, ih]; rfl

/-- Bytes written into a slip are written at its place, or, where no slip may lie there, not at all. -/
theorem State.writeSlip_cases (s : State) (o : Word) (n : Nat) (l : List Byte) :
    (s.slipPlace o = true ∧ s.writeSlip o n l = s.writeBytes (o.toNat + n) l) ∨ (s.slipPlace o = false ∧ s.writeSlip o n l = s) := by
  unfold State.writeSlip
  split
  · exact .inl ⟨by assumption, rfl⟩
  · exact .inr ⟨Bool.eq_false_iff.2 (by assumption), rfl⟩


@[simp] theorem State.writeBytes_uptime (s : State) (o : Nat) (l : List Byte) : (s.writeBytes o l).uptime = s.uptime := by
  rw [State.writeBytes_eq]
@[simp] theorem State.writeBytes_exu (s : State) (o : Nat) (l : List Byte) : (s.writeBytes o l).exu = s.exu := by
  rw [State.writeBytes_eq]
@[simp] theorem State.writeBytes_ntc (s : State) (o : Nat) (l : List Byte) : (s.writeBytes o l).ntc = s.ntc := by
  rw [State.writeBytes_eq]
@[simp] theorem State.writeBytes_cks (s : State) (o : Nat) (l : List Byte) : (s.writeBytes o l).cks = s.cks := by
  rw [State.writeBytes_eq]
@[simp] theorem State.writeBytes_isu (s : State) (o : Nat) (l : List Byte) : (s.writeBytes o l).isu = s.isu := by
  rw [State.writeBytes_eq]
@[simp] theorem State.writeBytes_tkr (s : State) (o : Nat) (l : List Byte) : (s.writeBytes o l).tkr = s.tkr := by
  rw [State.writeBytes_eq]
@[simp] theorem State.writeBytes_slc (s : State) (o : Nat) (l : List Byte) : (s.writeBytes o l).slc = s.slc := by
  rw [State.writeBytes_eq]
@[simp] theorem State.writeBytes_dmw (s : State) (o : Nat) (l : List Byte) : (s.writeBytes o l).dmw = s.dmw := by
  rw [State.writeBytes_eq]
@[simp] theorem State.writeBytes_askAnswer (s : State) (o : Nat) (l : List Byte) : (s.writeBytes o l).askAnswer = s.askAnswer := by
  rw [State.writeBytes_eq]
@[simp] theorem State.writeBytes_freeValues (s : State) (o : Nat) (l : List Byte) : (s.writeBytes o l).freeValues = s.freeValues := by
  rw [State.writeBytes_eq]
@[simp] theorem State.writeBytes_handovers (s : State) (o : Nat) (l : List Byte) : (s.writeBytes o l).handovers = s.handovers := by
  rw [State.writeBytes_eq]
@[simp] theorem State.writeBytes_pending (s : State) (o : Nat) (l : List Byte) : (s.writeBytes o l).pending = s.pending := by
  rw [State.writeBytes_eq]

end Sys2Proof.Machine
end

