-- ==== Sys2Proof/Laws/Warmers.lean ====
section
/-! SUPPORT. The shared operations of the Item and Stock Unit: once, what each can do. -/

namespace Sys2Proof.Machine

/-! ### Counts (R71, R72) -/

/-- A change of counts writes one item's record and hands over its availability notices, if it is tracked. -/
theorem State.changeStock_eq (s : State) (n : ItemId) (new : Item) :
    s.changeStock n new = { s.setItem n new with
      handovers := s.handovers ++
        if new.tracked then (availabilityNotices (s.item n) new).map (availabilityNotice n new) else [] } := by
  unfold State.changeStock
  simp only
  split
  · rfl
  · simp [State.setItem]

@[simp] theorem State.item_changeStock (s : State) (n m : ItemId) (new : Item) :
    (s.changeStock n new).item m = if m = n then new else s.item m := by
  rw [State.changeStock_eq]; exact State.item_setItem s n m new

@[simp] theorem State.batch_changeStock (s : State) (n : ItemId) (new : Item) (b : SlotId) :
    (s.changeStock n new).batch b = s.batch b := by rw [State.changeStock_eq]; rfl

@[simp] theorem State.check_changeStock (s : State) (n : ItemId) (new : Item) (h : Handle) :
    (s.changeStock n new).check h = s.check h := by rw [State.changeStock_eq]; rfl

/-- Reserve: refused below the quantity, and otherwise reserved rises by it. -/
theorem reserveAsk_cases (n : ItemId) (q : Nat) (s : State) :
    ((s.item n).available < q ∧ reserveAsk n q s = none) ∨
    (q ≤ (s.item n).available ∧
      reserveAsk n q s = some (s.changeStock n { s.item n with reserved := (s.item n).reserved + q })) := by
  unfold reserveAsk
  simp only
  split
  · exact .inl ⟨by assumption, rfl⟩
  · exact .inr ⟨by omega, rfl⟩

/-- Uncommit: both counts rise, or neither does and the line's mark is to be cleared. -/
theorem uncommitAsk_cases (n : ItemId) (q : Nat) (s : State) :
    ((s.item n).tracked = false ∧ uncommitAsk n q s = (s, false)) ∨
    ((s.item n).tracked = true ∧ 65535 < (s.item n).onHand + q ∧
      uncommitAsk n q s = (s.raise .stockShort (Word.ofCount n.val) [Word.ofCount q], false)) ∨
    ((s.item n).tracked = true ∧ (s.item n).onHand + q ≤ 65535 ∧
      uncommitAsk n q s = (s.changeStock n { s.item n with
        onHand := (s.item n).onHand + q, reserved := (s.item n).reserved + q }, true)) := by
  unfold uncommitAsk
  simp only
  cases ht : (s.item n).tracked with
  | false => exact .inl ⟨rfl, rfl⟩
  | true =>
    by_cases hq : 65535 < (s.item n).onHand + q
    · exact .inr (.inl ⟨rfl, hq, by simp [hq]⟩)
    · exact .inr (.inr ⟨rfl, by omega, by simp [hq]⟩)

/-! ### Timers and gates (R84, R89) -/

/-- A timer is loaded RUNNING behind an open gate and HELD behind a closed one. -/
theorem loadTimer_cases (s : State) (t : SlotId) (ms : Nat) :
    (gateOpen s t = true ∧ loadTimer s t ms = .running (s.uptime + ms)) ∨
    (gateOpen s t = false ∧ loadTimer s t ms = .held ms) := by
  unfold loadTimer
  cases gateOpen s t <;> simp

/-- A gate test neither starts nor stops a timer, and a timer keeps what it has left. -/
theorem gateTimer_left (now : Nat) (g : Bool) (c : Countdown) : (gateTimer now g c).left now = c.left now := by
  cases c <;> cases g <;> simp [gateTimer, Countdown.left]

theorem gateTimer_idle_iff (now : Nat) (g : Bool) (c : Countdown) : gateTimer now g c = .idle ↔ c = .idle := by
  cases c <;> cases g <;> simp [gateTimer]

/-- R84: no effective interval is below 30 s. -/
theorem intervalAt_ge (interval : Nat) (level : Level) : 30 ≤ intervalAt interval level := by
  cases level <;> exact Nat.le_max_left _ _

/-! ### Ordering (R86 to R88) -/

/-- An order of a batch: BATCH_BEHIND, BATCH_SKIPPED, or the size to ask for, the state then unchanged. -/
theorem orderBatch_cases (t : SlotId) (seconds : Nat) (s : State) :
    (∃ tag, (s.batch t).outstanding = some tag ∧
      orderBatch t seconds s = (s.raise .batchBehind (Word.ofCount t.val) [tag.toWord], .behind)) ∨
    ((s.batch t).outstanding = none ∧ batchSize s t seconds = 0 ∧
      orderBatch t seconds s = (s.raise .batchSkipped (Word.ofCount t.val) [0], .full)) ∨
    ((s.batch t).outstanding = none ∧ batchSize s t seconds ≠ 0 ∧
      orderBatch t seconds s = (s, .ask (batchSize s t seconds))) := by
  unfold orderBatch
  split
  · rename_i tag h; exact .inl ⟨tag, h, rfl⟩
  · rename_i h
    split
    · rename_i h0; exact .inr (.inl ⟨h, h0, rfl⟩)
    · rename_i h0; exact .inr (.inr ⟨h, h0, rfl⟩)

/-- An order leaves every record as it was: only a hand-over is added. -/
theorem orderBatch_frame (t : SlotId) (seconds : Nat) (s : State) :
    ∃ more, (orderBatch t seconds s).1 = { s with handovers := s.handovers ++ more } := by
  rcases orderBatch_cases t seconds s with ⟨tag, _, h⟩ | ⟨_, _, h⟩ | ⟨_, _, h⟩
  · exact ⟨_, by rw [h]; rfl⟩
  · exact ⟨_, by rw [h]; rfl⟩
  · exact ⟨[], by rw [h]; simp⟩

/-- The start of a lead timer changes one slot's lead timer, or orders a batch in its place, or does nothing. -/
theorem startLead_cases (t : SlotId) (s : State) :
    (((s.batch t).leadTimer ≠ .idle ∨ (s.batch t).outstanding.isSome = true) ∧ startLead t s = (s, none)) ∨
    ((s.batch t).leadTimer = .idle ∧ (s.batch t).outstanding = none ∧ gateOpen s t = true ∧ (s.batch t).leadDelay = 0 ∧
      startLead t s = ((orderBatch t (effective s t) s).1, (orderBatch t (effective s t) s).2.size)) ∨
    ((s.batch t).leadTimer = .idle ∧ (s.batch t).outstanding = none ∧
      startLead t s =
        (s.setBatch t { s.batch t with leadTimer := loadTimer s t ((s.batch t).leadDelay * 1000) }, none)) := by
  unfold startLead
  simp only
  split
  · exact .inl ⟨by assumption, rfl⟩
  · rename_i h
    have h1 : (s.batch t).leadTimer = .idle := Decidable.of_not_not (fun x => h (.inl x))
    have h2 : (s.batch t).outstanding = none := by
      cases ho : (s.batch t).outstanding with
      | none => rfl
      | some tag => exact (h (.inr (by simp [ho]))).elim
    split
    · rename_i hg; exact .inr (.inl ⟨h1, h2, hg.1, hg.2, rfl⟩)
    · exact .inr (.inr ⟨h1, h2, rfl⟩)

/-! ### Lots (R79 to R82) -/

/-- Units taken from the lots: the ready count falls by just what was taken. -/
theorem takeUnits_sum (q : Nat) (ls : List Lot) (h : q ≤ (ls.map Lot.count).sum) :
    ((takeUnits q ls).map Lot.count).sum = (ls.map Lot.count).sum - q := by
  induction ls generalizing q with
  | nil => simp [takeUnits]
  | cons l ls ih =>
    simp only [List.map_cons, List.sum_cons] at h ⊢
    simp only [takeUnits]
    split
    · simp [*]
    · split
      · rw [ih (q - l.count) (by omega)]; omega
      · simp only [List.map_cons, List.sum_cons]; omega

/-- A draw never makes more lots. -/
theorem takeUnits_length (q : Nat) (ls : List Lot) : (takeUnits q ls).length ≤ ls.length := by
  induction ls generalizing q with
  | nil => simp [takeUnits]
  | cons l ls ih =>
    simp only [takeUnits]
    split
    · exact Nat.le_refl _
    · split
      · exact Nat.le_succ_of_le (ih _)
      · exact Nat.le_refl _

/-- Each lot that a draw leaves still holds a unit at least. -/
theorem takeUnits_pos (q : Nat) (ls : List Lot) (h : ∀ l ∈ ls, 1 ≤ l.count) : ∀ l ∈ takeUnits q ls, 1 ≤ l.count := by
  induction ls generalizing q with
  | nil => simp [takeUnits]
  | cons l ls ih =>
    simp only [takeUnits]
    split
    · exact h
    · split
      · exact ih _ (fun m hm => h m (List.mem_cons_of_mem _ hm))
      · intro m hm
        rcases List.mem_cons.1 hm with rfl | hm
        · show 1 ≤ l.count - q
          omega
        · exact h m (List.mem_cons_of_mem _ hm)

/-- Food that enters a warmer never makes a fifth lot. -/
theorem addLot_length (lots : List Lot) (added : Nat) (expiry : Word) (h : lots.length ≤ 4) :
    (addLot lots added expiry).length ≤ 4 := by
  unfold addLot
  split
  · exact h
  · split
    · rename_i hl; simp only [List.length_append, List.length_singleton]; simp only [Config.lotsPerSlot] at hl; omega
    · simpa using h

/-- A draw is refused whole, or taken from the oldest lots, with the trigger of R88 after it. -/
theorem warmerDraw_cases (t : SlotId) (q : Nat) (s : State) :
    ((s.batch t).ready < q ∧ warmerDraw t q s = (s, false, none)) ∨
    (q ≤ (s.batch t).ready ∧
      (let r := lowTrigger t (s.batch t).ready (s.setBatch t { s.batch t with lots := takeUnits q (s.batch t).lots })
       warmerDraw t q s = (r.1, true, r.2))) := by
  unfold warmerDraw
  simp only
  split
  · exact .inl ⟨by assumption, rfl⟩
  · exact .inr ⟨by omega, rfl⟩

/-- The fall past the low mark: a lead timer is started as R88 says, or nothing happens. -/
theorem lowTrigger_cases (t : SlotId) (before : Nat) (s : State) :
    ((s.batch t).mode = .onDemand ∧ (s.batch t).lowMark ≤ before ∧ (s.batch t).ready < (s.batch t).lowMark ∧
      lowTrigger t before s = startLead t s) ∨
    (¬ ((s.batch t).mode = .onDemand ∧ (s.batch t).lowMark ≤ before ∧ (s.batch t).ready < (s.batch t).lowMark) ∧
      lowTrigger t before s = (s, none)) := by
  unfold lowTrigger
  simp only
  split
  · rename_i h; exact .inl ⟨h.1, h.2.1, h.2.2, rfl⟩
  · exact .inr ⟨by assumption, rfl⟩

end Sys2Proof.Machine
end

