-- ==== Sys2Proof/Laws/Handovers.lean ====
section
/-! SUPPORT. Hand-overs from block to block (R1): what taking one does to the list, and what an ask of ISU carries out first. -/

namespace Sys2Proof.Machine

/-! ### Taking a hand-over -/

@[simp] theorem takeFirst_nil (c : Instr) : takeFirst c [] = [] := rfl
@[simp] theorem takeFirst_cons_self (c : Instr) (l : List Instr) : takeFirst c (c :: l) = l := by simp [takeFirst]

/-- All that taking a command can do: the list stands, or it loses that command where no earlier one of its path waits. -/
theorem takeFirst_cases (c : Instr) (l : List Instr) :
    takeFirst c l = l ∨
    ∃ before after, l = before ++ c :: after ∧ (∀ d ∈ before, pathOf d ≠ pathOf c) ∧ takeFirst c l = before ++ after := by
  induction l with
  | nil => exact .inl rfl
  | cons d l ih =>
    unfold takeFirst
    by_cases h : d = c
    · exact .inr ⟨[], l, by simp [h], by simp, by simp [h]⟩
    · by_cases hp : pathOf d = pathOf c
      · simp [h, hp]
      · simp only [h, hp, if_false]
        rcases ih with ih | ⟨b, a, hl, hb, ht⟩
        · exact .inl (by rw [ih])
        · refine .inr ⟨d :: b, a, by simp [hl], ?_, by simp [ht]⟩
          intro e he
          rcases List.mem_cons.1 he with rfl | he
          · exact hp
          · exact hb e he

/-- A command that equals no hand-over takes none. -/
theorem takeFirst_of_not_mem {c : Instr} {l : List Instr} (h : c ∉ l) : takeFirst c l = l := by
  rcases takeFirst_cases c l with e | ⟨b, a, e, _⟩
  · exact e
  · exact absurd (by simp [e]) h

/-- A hand-over with none of its path before it is taken. -/
theorem takeFirst_append (c : Instr) (before after : List Instr) (h : ∀ d ∈ before, pathOf d ≠ pathOf c) :
    takeFirst c (before ++ c :: after) = before ++ after := by
  induction before with
  | nil => simp
  | cons d l ih =>
    have hd := h d (by simp)
    have hne : d ≠ c := fun e => hd (by rw [e])
    simp [takeFirst, hne, hd, ih (fun e he => h e (by simp [he]))]

/-- An earlier hand-over of the same path keeps a later one waiting. -/
theorem takeFirst_blocked (c d : Instr) (before after : List Instr) (hne : d ≠ c) (hp : pathOf d = pathOf c)
    (h : ∀ e ∈ before, pathOf e ≠ pathOf c) : takeFirst c (before ++ d :: after) = before ++ d :: after := by
  induction before with
  | nil => simp [takeFirst, hne, hp]
  | cons e l ih =>
    have he := h e (by simp)
    have hec : e ≠ c := fun x => he (by rw [x])
    simp [takeFirst, hec, he, ih (fun x hx => h x (by simp [hx]))]

/-! ### What reaches ISU before an ask -/

/-- What ISU takes from a hand-over changes its own tables and adds hand-overs. -/
def IsuOnly (s t : State) : Prop := ∃ isu more, t = { s with isu := isu, handovers := s.handovers ++ more }

theorem IsuOnly.refl (s : State) : IsuOnly s s := ⟨s.isu, [], by simp⟩

theorem IsuOnly.trans {s t u : State} (h : IsuOnly s t) (k : IsuOnly t u) : IsuOnly s u := by
  obtain ⟨a, m, rfl⟩ := h
  obtain ⟨b, n, rfl⟩ := k
  exact ⟨b, m ++ n, by simp⟩

theorem IsuOnly.foldl {α : Type} {f : State → α → State} (h : ∀ s a, IsuOnly s (f s a)) (l : List α) (s : State) :
    IsuOnly s (l.foldl f s) := by
  induction l generalizing s with
  | nil => exact .refl s
  | cons a l ih => exact (h s a).trans (ih _)

theorem IsuOnly.setBatch (s : State) (t : SlotId) (b : Batch) : IsuOnly s (s.setBatch t b) :=
  ⟨(s.setBatch t b).isu, [], by simp [State.setBatch]⟩

theorem IsuOnly.hand (s : State) (c : Instr) : IsuOnly s (s.hand c) := ⟨s.isu, [c], rfl⟩

theorem IsuOnly.wasteOf (s : State) (t : SlotId) (cause : WasteCause) (q : Nat) : IsuOnly s (s.wasteOf t cause q) := by
  unfold State.wasteOf
  split
  · exact .refl s
  · exact .hand ..

theorem startLead_isuOnly (t : SlotId) (s : State) : IsuOnly s (startLead t s).1 := by
  rcases startLead_cases t s with ⟨_, h⟩ | ⟨_, _, _, _, h⟩ | ⟨_, _, h⟩
  · rw [h]; exact .refl s
  · rw [h]; obtain ⟨more, e⟩ := orderBatch_frame t (effective s t) s; exact ⟨s.isu, more, e⟩
  · rw [h]; exact .setBatch ..

theorem lowTest_isuOnly (t : SlotId) (s : State) : IsuOnly s (lowTest t s).1 := by
  unfold lowTest
  simp only
  split
  · exact startLead_isuOnly t s
  · exact .refl s

theorem batchBumped_isuOnly (t : SlotId) (q : Nat) (s : State) : IsuOnly s (batchBumped t q s).1 := by
  unfold batchBumped
  simp only
  split
  · exact ((IsuOnly.setBatch ..).trans (.wasteOf ..)).trans (lowTest_isuOnly ..)
  · exact (IsuOnly.setBatch ..).trans (lowTest_isuOnly ..)

theorem voidReturned_isuOnly (x : ItemId) (slot : Option SlotId) (q : Nat) (s : State) :
    IsuOnly s (voidReturned x slot q s) := by
  unfold voidReturned
  split
  · exact .hand ..
  · simp only
    split
    · exact (IsuOnly.setBatch ..).trans (.hand ..)
    · exact .setBatch ..

theorem gateTestAll_isuOnly (s : State) : IsuOnly s (gateTestAll s) := .foldl (fun _ _ => .setBatch ..) _ s

theorem reloadSlots_isuOnly (s : State) : IsuOnly s (reloadSlots s) := by
  have h : IsuOnly s { s with isu := { s.isu with levels := [] } } :=
    ⟨{ s.isu with levels := [] }, [], by simp⟩
  refine (h.trans (.foldl (fun s t => ?_) _ _)).trans (gateTestAll_isuOnly _)
  unfold reloadSlot
  simp only
  split <;> exact .setBatch ..

theorem dayCloseSlots_isuOnly (s : State) : IsuOnly s (dayCloseSlots s) := by
  refine (IsuOnly.foldl (fun s t => ?_) _ s).trans (reloadSlots_isuOnly _)
  exact (IsuOnly.foldl (fun s l => .wasteOf ..) _ s).trans (.setBatch ..)

/-- R1: all that a hand-over taken at ISU changes. -/
theorem isuTakes_isuOnly (c : Instr) (s : State) : IsuOnly s (isuTakes c s).1 := by
  unfold isuTakes
  split
  · exact batchBumped_isuOnly ..
  · exact (IsuOnly.setBatch ..).trans (lowTest_isuOnly ..)
  · exact voidReturned_isuOnly ..
  · exact gateTestAll_isuOnly s
  · exact dayCloseSlots_isuOnly s
  · exact .refl s

/-- R1: with nothing on its way from the asking block, an ask finds ISU as it stands. -/
theorem deliverToIsu_of_none (sender : Block) (s : State) (h : s.waitingFor sender .isu = []) :
    deliverToIsu sender s = (s, []) := by
  have h2 : s.handovers.filter (fun c => decide (pathOf c ≠ some (sender, .isu))) = s.handovers := by
    rw [List.filter_eq_self]
    intro c hc
    have := List.filter_eq_nil_iff.1 h c hc
    simpa using this
  unfold deliverToIsu
  rw [h, h2]
  rfl

/-- R1: what is on its way to ISU changes ISU's tables, leaves the list of hand-overs, and may add others behind it. -/
theorem deliverToIsu_frame (sender : Block) (s : State) :
    ∃ isu more, (deliverToIsu sender s).1 =
      { s with isu := isu
               handovers := s.handovers.filter (fun c => decide (pathOf c ≠ some (sender, .isu))) ++ more } := by
  have key : ∀ (l : List Instr) (r : State × List (SlotId × Nat)),
      IsuOnly r.1 (l.foldl (fun r c => let u := isuTakes c r.1; (u.1, r.2 ++ u.2)) r).1 := by
    intro l
    induction l with
    | nil => exact fun r => .refl r.1
    | cons c l ih => exact fun r => (isuTakes_isuOnly c r.1).trans (ih _)
  obtain ⟨isu, more, h⟩ := key (s.waitingFor sender .isu)
    ({ s with handovers := s.handovers.filter (fun c => decide (pathOf c ≠ some (sender, .isu))) }, [])
  exact ⟨isu, more, h⟩

/-- R63: the test that an event other than the close makes: none while the close is on its way, and that of R110 otherwise. -/
theorem orderReadyOnEvent_cases (h : Handle) (s : State) :
    (.checkCloseTold h ∈ s.handovers ∧ orderReadyOnEvent h s = s) ∨
    (.checkCloseTold h ∉ s.handovers ∧ orderReadyOnEvent h s = orderReadyTest h s) := by
  unfold orderReadyOnEvent
  by_cases hm : .checkCloseTold h ∈ s.handovers <;> simp [hm]

end Sys2Proof.Machine
end

