-- ==== Sys2Proof/Laws/LinkOps.lean ====
section
/-! SUPPORT. The shared operations of the Station Link Controller: each changes one link and adds hand-overs, and what the link
becomes. -/

namespace Sys2Proof.Machine

/-- Of the whole state only one link changed, to `l`, and these hand-overs were added. -/
def LinkOnly (st : StationId) (l : Link) (more : List Instr) (s t : State) : Prop :=
  t = { s.setLink st l with handovers := s.handovers ++ more }

/-- What every link reads then. -/
theorem LinkOnly.link {st : StationId} {l : Link} {more : List Instr} {s t : State} (h : LinkOnly st l more s t)
    (a : StationId) : t.link a = if a = st then l else s.link a := by
  subst h; exact State.link_setLink s st a l

theorem LinkOnly.handovers {st : StationId} {l : Link} {more : List Instr} {s t : State} (h : LinkOnly st l more s t) :
    t.handovers = s.handovers ++ more := by subst h; rfl

theorem pumpLink_linkOnly (st : StationId) (s : State) : LinkOnly st (s.link st).pump [] s (pumpLink st s) := by
  simp [LinkOnly, pumpLink, State.setLink]

/-- R148: a request for a refresh empties the outbox and asks for the shown set, once, and only in LIVE and REJOINING. -/
theorem requestRefresh_cases (st : StationId) (s : State) :
    ((s.link st).inService = true ∧ (s.link st).refreshAwaited = false ∧
      LinkOnly st { s.link st with outbox := [], refreshAwaited := true, askNo := (s.link st).askNo + 1 }
        [.shownSetAsk st ((s.link st).askNo + 1)] s (requestRefresh st s)) ∨
    (((s.link st).inService = false ∨ (s.link st).refreshAwaited = true) ∧ requestRefresh st s = s) := by
  unfold requestRefresh
  simp only
  cases hi : (s.link st).inService <;> cases hr : (s.link st).refreshAwaited <;> simp [LinkOnly, State.hand, State.setLink]

/-- R152: what a link gone DARK is, and that it is announced. -/
theorem goDark_linkOnly (st : StationId) (cause : LinkCause) (s : State) :
    ∃ more, LinkOnly st
      { s.link st with
        state := .dark, inFlight := none, outbox := [], refreshAwaited := false, failures := 0, busies := 0
        statusDue := none, busyDue := none, probeDue := some (s.uptime + Config.probeTime) } more s (goDark st cause s) :=
  ⟨_, rfl⟩

/-- R154: what a link whose rejoin starts is. -/
theorem startRejoin_linkOnly (st : StationId) (reported : Option Nat) (count : Nat) (cause : LinkCause) (s : State) :
    ∃ more, LinkOnly st
      { s.link st with
        state := .rejoining, reported := reported, count := count, inFlight := none, statusDue := none, busyDue := none
        failures := 0, busies := 0, probeDue := none, outbox := [], refreshAwaited := true
        askNo := (s.link st).askNo + 1 } more s (startRejoin st reported count cause s) := by
  refine ⟨[.linkStateTkr st .rejoining (some count), .gateTest,
    .noticeRaise
      { kind := .stationState, subject := Word.ofCount st.val,
        values := [Word.ofCount LinkState.rejoining.code, Word.ofCount (s.link st).state.code, Word.ofCount cause.code,
          Word.ofCount count] },
    .shownSetAsk st ((s.link st).askNo + 1)], ?_⟩
  simp [LinkOnly, startRejoin, announce, State.hand, State.handAll, State.setLink, State.link]

/-- R155: a rejoin completed leaves the link LIVE. -/
theorem completeRejoin_linkOnly (st : StationId) (s : State) :
    ∃ more, LinkOnly st { s.link st with state := .live } more s (completeRejoin st s) := ⟨_, rfl⟩

/-- R145: a link that sends its answers keeps its state, its outbox and its frame in flight. -/
theorem Link.sendAnswers_eq (l : Link) :
    l.sendAnswers = { l with wire := l.sendAnswers.wire, answers := l.sendAnswers.answers } := by
  unfold Link.sendAnswers
  split <;> rfl

/-- R145: a frame starts only in LIVE and REJOINING, with none in flight and no refresh awaited. -/
theorem Link.takeFlight_cases (l : Link) :
    l.takeFlight = l ∨
    ∃ f rest, l.outbox = f :: rest ∧ l.inService = true ∧ l.inFlight = none ∧ l.refreshAwaited = false ∧
      l.takeFlight = { l with
        outbox := rest, failures := 0, busies := 0
        inFlight := some { frame := f.frame, isProbe := false, rejoin := f.rejoin, sent := false }
        statusDue := none, busyDue := none, wire := l.wire ++ [frameBytes f.frame] } := by
  unfold Link.takeFlight
  split
  · rename_i h
    split
    · exact .inl rfl
    · rename_i f rest ho
      exact .inr ⟨f, rest, ho, h.1, by simpa using h.2.1, by simpa using h.2.2, rfl⟩
  · exact .inl rfl

end Sys2Proof.Machine
end

