-- ==== Sys2Proof/Laws/Memory.lean ====
section
/-! SUPPORT. Host memory: what a read of one byte finds after bytes were written through the region, and that every memory
operation keeps the canonical form. -/

namespace Sys2Proof.Machine

@[simp] theorem State.busAddress_setByte (s : State) (a o : Nat) (b : Byte) :
    (s.setByte a b).busAddress o = s.busAddress o := rfl

@[simp] theorem State.busAddress_writeBytes (s : State) (o p : Nat) (l : List Byte) :
    (s.writeBytes o l).busAddress p = s.busAddress p := by
  rw [State.writeBytes_eq]; rfl

/-- Two offsets nearer than 2^64 to each other have different bus addresses. -/
theorem State.busAddress_ne (s : State) {o p : Nat} (h : o < p) (hp : p < o + 18446744073709551616) :
    s.busAddress o ≠ s.busAddress p := by
  unfold State.busAddress; omega

/-- A byte outside those written reads as before. -/
theorem State.byteAt_writeBytes_other (s : State) (o : Nat) (l : List Byte) (a : Nat)
    (h : ∀ i, i < l.length → a ≠ s.busAddress (o + i)) : (s.writeBytes o l).byteAt a = s.byteAt a := by
  induction l generalizing s o with
  | nil => rfl
  | cons b l ih =>
    rw [State.writeBytes, ih]
    · rw [State.byteAt_setByte, if_neg (show a ≠ s.busAddress o from h 0 (by simp))]
    · intro i hi
      rw [State.busAddress_setByte, Nat.add_assoc, Nat.add_comm 1 i]
      exact h (i + 1) (by simpa using hi)

/-- The bytes written are there. -/
theorem State.byteAt_writeBytes_there (s : State) (o : Nat) (l : List Byte) (hl : l.length ≤ 18446744073709551616)
    (i : Nat) (b : Byte) (hb : l[i]? = some b) : (s.writeBytes o l).byteAt (s.busAddress (o + i)) = b := by
  induction l generalizing s o i with
  | nil => simp at hb
  | cons c l ih =>
    have hi : i < (c :: l).length := (List.getElem?_eq_some_iff.1 hb).1
    rw [List.length_cons] at hl hi
    rw [State.writeBytes]
    cases i with
    | zero =>
      rw [State.byteAt_writeBytes_other]
      · simpa using hb
      · intro j hj
        rw [State.busAddress_setByte]
        exact State.busAddress_ne s (by omega) (by omega)
    | succ i =>
      have := ih (s.setByte (s.busAddress o) c) (o + 1) (by omega) i (by simpa using hb)
      rwa [State.busAddress_setByte, Nat.add_assoc, Nat.add_comm 1 i] at this

/-- Every write through the region keeps memory canonical, whatever is written. -/
theorem State.writeBytes_keeps_wf (s : State) (o : Nat) (l : List Byte) (h : Memory.wf s.mem = true) :
    Memory.wf (s.writeBytes o l).mem = true := State.writeBytes_wf l o h

end Sys2Proof.Machine
end

