-- ==== Sys2Proof/Laws/Requests.lean ====
section
/-! SUPPORT. The tests every request of the Check Store begins with (R7, R8, R19, R22): once, everything each can answer. -/

namespace Sys2Proof.Machine

/-- R7 step 3: RANGE, NO_CHECK, or the request goes on with the live check its handle names. -/
theorem withCheck_cases {w : Word} {s : State} {k : Handle → Check → Out} {out : Out} (h : withCheck w s k = out) :
    (handleOf w = none ∧ out = refuse .range s) ∨
    (∃ g, handleOf w = some g ∧ s.check g = none ∧ out = refuse .noCheck s) ∨
    (∃ g c, handleOf w = some g ∧ s.check g = some c ∧ out = k g c) := by
  subst h
  unfold withCheck
  split
  · exact .inl ⟨by assumption, rfl⟩
  · split
    · exact .inr (.inl ⟨_, by assumption, by assumption, rfl⟩)
    · exact .inr (.inr ⟨_, _, by assumption, by assumption, rfl⟩)

theorem withCheck_live {w : Word} {s : State} {g : Handle} {c : Check} (hw : handleOf w = some g) (hc : s.check g = some c)
    (k : Handle → Check → Out) : withCheck w s k = k g c := by
  simp [withCheck, hw, hc]

/-- R19: NOT_HELD, HELD with the holding till, or the request goes on. -/
theorem withHolding_cases {r : Requester} {c : Check} {s : State} {k out : Out} (h : withHolding r c s k = out) :
    (c.holder = none ∧ out = refuse .notHeld s) ∨
    (∃ t, c.holder = some t ∧ t ≠ r.till.toNat ∧ out = refuseHeld t s) ∨
    (c.holder = some r.till.toNat ∧ out = k) := by
  subst h
  unfold withHolding
  split
  · exact .inl ⟨by assumption, rfl⟩
  · rename_i t ht
    split
    · rename_i he; exact .inr (.inr ⟨by rw [ht, he], rfl⟩)
    · rename_i he; exact .inr (.inl ⟨t, ht, he, rfl⟩)

/-- R7 steps 3 to 5: a refusal, or the request goes on with a check that is neither CLOSED nor EXPORTED, in the till's hands. -/
theorem withHeldCheck_cases {r : Requester} {w : Word} {s : State} {k : Handle → Check → Out} {out : Out}
    (h : withHeldCheck r w s k = out) :
    (handleOf w = none ∧ out = refuse .range s) ∨
    (∃ g, handleOf w = some g ∧ s.check g = none ∧ out = refuse .noCheck s) ∨
    (∃ g c, handleOf w = some g ∧ s.check g = some c ∧ c.ended = true ∧ out = refuse .checkClosed s) ∨
    (∃ g c, handleOf w = some g ∧ s.check g = some c ∧ c.ended = false ∧ c.holder = none ∧ out = refuse .notHeld s) ∨
    (∃ g c t, handleOf w = some g ∧ s.check g = some c ∧ c.ended = false ∧ c.holder = some t ∧ t ≠ r.till.toNat ∧
      out = refuseHeld t s) ∨
    (∃ g c, handleOf w = some g ∧ s.check g = some c ∧ c.ended = false ∧ c.holder = some r.till.toNat ∧ out = k g c) := by
  rcases withCheck_cases h with h | ⟨g, hg, hn, ho⟩ | ⟨g, c, hg, hc, ho⟩
  · exact .inl h
  · exact .inr (.inl ⟨g, hg, hn, ho⟩)
  · cases he : c.ended with
    | true => exact .inr (.inr (.inl ⟨g, c, hg, hc, he, by simpa [he] using ho⟩))
    | false =>
      rw [he] at ho
      rcases withHolding_cases (Eq.symm (by simpa using ho)) with ⟨hh, ho⟩ | ⟨t, hh, hne, ho⟩ | ⟨hh, ho⟩
      · exact .inr (.inr (.inr (.inl ⟨g, c, hg, hc, he, hh, ho⟩)))
      · exact .inr (.inr (.inr (.inr (.inl ⟨g, c, t, hg, hc, he, hh, hne, ho⟩))))
      · exact .inr (.inr (.inr (.inr (.inr ⟨g, c, hg, hc, he, hh, ho⟩))))

/-- The request of the holder goes on. -/
theorem withHeldCheck_held {r : Requester} {w : Word} {s : State} {g : Handle} {c : Check} (hw : handleOf w = some g)
    (hc : s.check g = some c) (he : c.ended = false) (hh : c.holder = some r.till.toNat) (k : Handle → Check → Out) :
    withHeldCheck r w s k = k g c := by
  simp [withHeldCheck, withCheck_live hw hc, he, withHolding, hh]

/-- R22 steps 1 to 6: a request on a live line of an OPEN check in the till's hands goes on. -/
theorem withOpenLine_live {r : Requester} {w line : Word} {s : State} {g : Handle} {c : Check} {l : Line}
    (hw : handleOf w = some g) (hc : s.check g = some c) (ho : c.state = .opened) (hh : c.holder = some r.till.toNat)
    (hi : line.toNat ≤ 39) (hl : c.lines[line.toNat]? = some l) (hv : l.void = false)
    (k : Handle → Check → Nat → Line → Out) : withOpenLine r w line s k = k g c line.toNat l := by
  have he : c.ended = false := by simp [Check.ended, ho]
  simp [withOpenLine, within, hi, withHeldCheck_held hw hc he hh, ho, hl, hv]

/-- R7: the till that an OPEN_CHECK, a PICK_UP or a REOPEN takes holding for is an open till, with its stand. -/
theorem requestingTill_cases {s : State} {r : Requester} {n : Nat} {st : StandId} (h : s.requestingTill r = some (n, st)) :
    n = r.till.toNat ∧ 1 ≤ n ∧ n ≤ 96 ∧ (s.till n).isOpen = true ∧ (s.till n).stand = some st := by
  unfold State.requestingTill at h
  simp only at h
  split at h
  · rename_i hc
    rw [Option.map_eq_some_iff] at h
    obtain ⟨a, ha, he⟩ := h
    cases he
    exact ⟨rfl, hc.1, hc.2.1, hc.2.2, ha⟩
  · cases h

/-- A refusal changes the answer only. -/
theorem refuse_next {reason : Reason} {s t : State} (h : refuse reason s = .next t) :
    t = { s with exu := { s.exu with answer := some (.refused reason none) } } := by
  cases h; rfl

/-- A request done changes the answer only. -/
theorem finish_next {ws : List Word} {s t : State} (h : finish ws s = .next t) :
    t = { s with exu := { s.exu with answer := some (.done ws) } } := by
  cases h; rfl

end Sys2Proof.Machine
end

