-- ==== Sys2Proof/Laws/Router.lean ====
section
/-! SUPPORT. The shared operations of the Ticket Router: what each may change. A queue operation changes the router's own tables
and adds hand-overs; the operations that reach checks change check records too. -/

namespace Sys2Proof.Machine

/-- Of the whole state only the router's own tables changed, and hand-overs were added. -/
def RouterOnly (s t : State) : Prop := ∃ tkr more, t = { s with tkr := tkr, handovers := s.handovers ++ more }

theorem RouterOnly.refl (s : State) : RouterOnly s s := ⟨s.tkr, [], by simp⟩

theorem RouterOnly.trans {s t u : State} (h : RouterOnly s t) (k : RouterOnly t u) : RouterOnly s u := by
  obtain ⟨a, m, rfl⟩ := h
  obtain ⟨b, n, rfl⟩ := k
  exact ⟨b, m ++ n, by simp⟩

theorem RouterOnly.foldl {α : Type} {f : State → α → State} (h : ∀ s a, RouterOnly s (f s a)) (l : List α) (s : State) :
    RouterOnly s (l.foldl f s) := by
  induction l generalizing s with
  | nil => exact .refl s
  | cons a l ih => exact (h s a).trans (ih _)

theorem RouterOnly.setQueues (s : State) (st : StationId) (q : Queues) : RouterOnly s (s.setQueues st q) :=
  ⟨(s.setQueues st q).tkr, [], by simp [State.setQueues]⟩

theorem RouterOnly.setTicketRec (s : State) (i : Nat) (r : TicketRec) : RouterOnly s (s.setTicketRec i r) :=
  ⟨(s.setTicketRec i r).tkr, [], by simp [State.setTicketRec]⟩

theorem RouterOnly.hand (s : State) (c : Instr) : RouterOnly s (s.hand c) := ⟨s.tkr, [c], rfl⟩

theorem joinWaiting_routerOnly (st : StationId) (i : Nat) (s : State) : RouterOnly s (joinWaiting st i s) := .setQueues ..

theorem leaveWaiting_routerOnly (st : StationId) (i : Nat) (s : State) : RouterOnly s (leaveWaiting st i s) := .setQueues ..

theorem leaveShown_routerOnly (st : StationId) (i : Nat) (s : State) : RouterOnly s (leaveShown st i s) := .setQueues ..

theorem mapTicket_routerOnly (i : Nat) (f : Ticket → Ticket) (s : State) : RouterOnly s (mapTicket i f s) := by
  unfold mapTicket
  split
  · exact .refl s
  · exact .setTicketRec ..

theorem sendClear_routerOnly (st : StationId) (k : Option Nat) (s : State) : RouterOnly s (sendClear st k s) := by
  unfold sendClear
  split
  · exact .refl s
  · exact .hand ..

theorem sendMark_routerOnly (i : Nat) (s : State) : RouterOnly s (sendMark i s) := by
  unfold sendMark
  split
  · exact .refl s
  · split
    · exact .refl s
    · exact .hand ..

theorem ticketNotice_routerOnly (i : Nat) (s : State) : RouterOnly s (ticketNotice i s) := by
  unfold ticketNotice
  split
  · exact .refl s
  · split
    · exact .refl s
    · exact .hand ..

theorem showIn_routerOnly (st : StationId) (k i : Nat) (s : State) : RouterOnly s (showIn st k i s) := by
  unfold showIn
  split
  · exact .refl s
  · exact (((leaveWaiting_routerOnly st i s).trans (.setTicketRec ..)).trans (.setQueues ..)).trans (.hand ..)

/-- R119: a fill changes the router's tables only, and hands frames over. -/
theorem fill_routerOnly (st : StationId) (s : State) : RouterOnly s (fill st s) := by
  have loop : ∀ n s, RouterOnly s (fillLoop st n s) := by
    intro n
    induction n with
    | zero => exact fun s => .refl s
    | succ n ih =>
      intro s
      unfold fillLoop
      split
      · exact .refl s
      · exact (showIn_routerOnly ..).trans (ih _)
  exact loop _ s

theorem backToWaiting_routerOnly (st : StationId) (i : Nat) (s : State) : RouterOnly s (backToWaiting st i s) :=
  ((leaveShown_routerOnly st i s).trans (mapTicket_routerOnly ..)).trans (joinWaiting_routerOnly ..)

theorem displace_routerOnly (st : StationId) (c h : Nat) (s : State) : RouterOnly s (displace st c h s) := by
  unfold displace
  split
  · exact .refl s
  · exact ((RouterOnly.hand ..).trans (backToWaiting_routerOnly ..)).trans (showIn_routerOnly ..)

/-- R122, R123: so does the displacement test. -/
theorem displaceTest_routerOnly (st : StationId) (s : State) : RouterOnly s (displaceTest st s) := by
  have loop : ∀ n s, RouterOnly s (displaceLoop st n s) := by
    intro n
    induction n with
    | zero => exact fun s => .refl s
    | succ n ih =>
      intro s
      unfold displaceLoop
      split
      · exact .refl s
      · exact (displace_routerOnly ..).trans (ih _)
  exact loop _ s

theorem fillAndTest_routerOnly (st : StationId) (s : State) : RouterOnly s (fillAndTest st s) :=
  (fill_routerOnly st s).trans (displaceTest_routerOnly ..)

theorem fillAll_routerOnly (sts : List StationId) (s : State) : RouterOnly s (fillAll sts s) :=
  .foldl (fun s st => fillAndTest_routerOnly st s) sts s

theorem turnLate_routerOnly (i : Nat) (s : State) : RouterOnly s (turnLate i s) :=
  ((mapTicket_routerOnly ..).trans (ticketNotice_routerOnly ..)).trans (sendMark_routerOnly ..)

theorem testLate_routerOnly (i ms : Nat) (s : State) : RouterOnly s (testLate i ms s) := by
  unfold testLate
  split
  · exact .refl s
  · split
    · split
      · exact turnLate_routerOnly ..
      · exact .setTicketRec ..
    · exact .refl s

theorem moveTicket_routerOnly (st f : StationId) (s : State) (i : Nat) : RouterOnly s (moveTicket st f s i) :=
  (((leaveWaiting_routerOnly st i s).trans (mapTicket_routerOnly ..)).trans (joinWaiting_routerOnly ..)).trans
    (ticketNotice_routerOnly ..)

/-- R134: so does the move of a stranded station's tickets. -/
theorem strandedMove_routerOnly (st : StationId) (s : State) : RouterOnly s (strandedMove st s) := by
  unfold strandedMove
  split
  · exact .refl s
  · split
    · exact .refl s
    · exact (RouterOnly.foldl (moveTicket_routerOnly st _) _ s).trans (fillAndTest_routerOnly ..)

theorem returnShown_routerOnly (st : StationId) (which : Nat → Bool) (s : State) : RouterOnly s (returnShown st which s) :=
  .foldl (fun s i => backToWaiting_routerOnly st i s) _ s

theorem placeRecalled_routerOnly (st : StationId) (i : Nat) (s : State) : RouterOnly s (placeRecalled st i s) := by
  unfold placeRecalled
  simp only
  split
  · split
    · exact showIn_routerOnly ..
    · exact (mapTicket_routerOnly ..).trans (joinWaiting_routerOnly ..)
  · exact (mapTicket_routerOnly ..).trans (joinWaiting_routerOnly ..)

/-- R126 step 2. -/
theorem pushBumped_routerOnly (st : StationId) (i : Nat) (s : State) : RouterOnly s (pushBumped st i s).1 := by
  unfold pushBumped
  simp only
  split
  · exact .setQueues ..
  · exact (RouterOnly.setQueues ..).trans (.setTicketRec ..)

/-! ### What a station's records read after such an operation -/

theorem RouterOnly.link {s t : State} (h : RouterOnly s t) (st : StationId) : t.link st = s.link st := by
  obtain ⟨_, _, rfl⟩ := h; rfl
theorem RouterOnly.check {s t : State} (h : RouterOnly s t) (g : Handle) : t.check g = s.check g := by
  obtain ⟨_, _, rfl⟩ := h; rfl
theorem RouterOnly.stand {s t : State} (h : RouterOnly s t) (n : StandId) : t.stand n = s.stand n := by
  obtain ⟨_, _, rfl⟩ := h; rfl
theorem RouterOnly.item {s t : State} (h : RouterOnly s t) (x : ItemId) : t.item x = s.item x := by
  obtain ⟨_, _, rfl⟩ := h; rfl
theorem RouterOnly.batch {s t : State} (h : RouterOnly s t) (b : SlotId) : t.batch b = s.batch b := by
  obtain ⟨_, _, rfl⟩ := h; rfl
theorem RouterOnly.pace {s t : State} (h : RouterOnly s t) (n : StandId) : t.pace n = s.pace n := by
  obtain ⟨_, _, rfl⟩ := h; rfl
theorem RouterOnly.exu {s t : State} (h : RouterOnly s t) : t.exu = s.exu := by obtain ⟨_, _, rfl⟩ := h; rfl
theorem RouterOnly.mem {s t : State} (h : RouterOnly s t) : t.mem = s.mem := by obtain ⟨_, _, rfl⟩ := h; rfl
theorem RouterOnly.pending {s t : State} (h : RouterOnly s t) : t.pending = s.pending := by obtain ⟨_, _, rfl⟩ := h; rfl
theorem RouterOnly.handovers {s t : State} (h : RouterOnly s t) : s.handovers <+: t.handovers := by
  obtain ⟨_, m, rfl⟩ := h; exact ⟨m, rfl⟩

/-! ### Order-ready (R110) -/

/-- The order-ready test sets one check's flag and raises ORDER_READY, or changes nothing. -/
theorem orderReadyTest_cases (h : Handle) (s : State) :
    orderReadyTest h s = s ∨
    ∃ c, s.check h = some c ∧ c.ready (s.stand c.stand).policy = true ∧
      orderReadyTest h s =
        (s.setCheck h { c with orderReady := true }).raise .orderReady h.toWord (orderReadyValues s h c) := by
  unfold orderReadyTest
  split
  · exact .inl rfl
  · rename_i c hc
    split
    · rename_i hr; exact .inr ⟨c, hc, hr, rfl⟩
    · exact .inl rfl

/-! ### Routing (R95) -/

/-- A ticket goes to the station its route names, or to that station's LIVE fallback. -/
theorem chooseStation_cases (s : State) (st : StationId) :
    chooseStation s st = st ∨
    ∃ f, (s.link st).fallback = some f ∧ (s.link f).state = .live ∧ (s.link st).state ≠ .live ∧
      (s.link st).state ≠ .rejoining ∧ chooseStation s st = f := by
  unfold chooseStation
  split
  · exact .inl rfl
  · rename_i hs
    split
    · exact .inl rfl
    · rename_i f hf
      split
      · rename_i hl; exact .inr ⟨f, hf, hl, fun x => hs (.inl x), fun x => hs (.inr x), rfl⟩
      · exact .inl rfl

end Sys2Proof.Machine
end

