-- ==== Sys2Proof/WellFormed.lean ====
section
/-! DEFINITION. The commands that can reach the part: what the rule of each command says its operands may be. The operands of a
request are any words whatever, since the part tests them and refuses; the operands of an event inside the part come from a
block, and only values that a block can hand over are well formed. -/

namespace Sys2Proof

/-- Line indexes 0..39, strictly rising: a list of a check's lines in list order (R93). -/
def risingLines : List Nat → Bool
  | [] => true
  | [a] => decide (a < Config.linesPerCheck)
  | a :: b :: l => decide (a < b) && risingLines (b :: l)

/-- R12: a line index 0..39. -/
def LineRef.wf (r : LineRef) : Bool := decide (r.line < Config.linesPerCheck)

/-- R12: a line's quantity. -/
def lineQuantity (q : Nat) : Bool := decide (1 ≤ q) && decide (q ≤ 99)

/-- R75, R87: a batch's quantity, from 1 to the largest warmer capacity. -/
def batchQuantity (q : Nat) : Bool := decide (1 ≤ q) && decide (q ≤ 999)

/-- R97: a tag that names a ticket record. -/
def Tag.wf (t : Tag) : Bool := decide (t.index.toNat < Config.ticketRecords)

/-- R141: the frames that TKR hands over: SHOW, CLEAR and MARK, of a slot 0..7 and 1..12 entries. -/
def Frame.fromRouter : Frame → Bool
  | .showTicket slot _ _ _ _ entries =>
    decide (slot < 8) && decide (1 ≤ entries.length) && decide (entries.length ≤ Config.entriesPerTicket)
  | .clearSlot slot => decide (slot < 8)
  | .mark slot _ _ voids => decide (slot < 8) && decide (1 ≤ voids.length) && decide (voids.length ≤ Config.entriesPerTicket)
  | _ => false

/-- A SHOW frame. -/
def Frame.isShow : Frame → Bool
  | .showTicket .. => true
  | _ => false

/-- R192: a notice has at most five value words. -/
def Notice.wf (n : Notice) : Bool := decide (n.values.length ≤ 5)

/-- R177: a write that the window ignores: of another width than a whole aligned word, to ID, or at 0x20 or above. -/
def ignoredWrite (offset width : Nat) : Bool :=
  decide (offset < Config.pageBytes) &&
    (decide (width ≠ 4) || decide (offset % 4 ≠ 0) || decide (offset = 0) || decide (0x20 ≤ offset))

/-- R140: a frame's body is at most 64 bytes. -/
def bodyFits (body : List Byte) : Bool := decide (body.length ≤ 64)

/-- R154, R156: the slot count that an announcement carries: after a rejoin began, 4..8. -/
def announcedCount (state : LinkState) : Option Nat → Bool
  | none => decide (state ≠ .rejoining)
  | some n => decide (state = .rejoining) && decide (4 ≤ n) && decide (n ≤ 8)

/-- The operands of a command are such as its rule allows. -/
def Instr.wf : Instr → Bool
  | .registerWriteIgnored offset width _ => ignoredWrite offset width
  | .walkerTakeSlip stores => stores.all (fun e => decide (e.1 < 18446744073709551616))
  | .firing _ lines _ => !lines.isEmpty && risingLines lines
  | .delayExpiry ref => ref.wf
  | .kitchenVoid ref _ q _ => ref.wf && lineQuantity q
  | .batchTicketAsk _ q => batchQuantity q
  | .focusTimerExpiry tag => tag.wf
  | .lateTimerExpiry tag => tag.wf
  | .paceChangeTkr _ p => decide (5 ≤ p.focus) && decide (p.focus ≤ 120) && decide (60 ≤ p.late) && decide (p.late ≤ 1800)
  | .linkStateTkr _ state count => announcedCount state count
  | .reserve _ q => lineQuantity q
  | .release _ q => lineQuantity q
  | .commit _ q => lineQuantity q
  | .uncommit ref _ q => ref.wf && lineQuantity q
  | .warmerDraw _ q => lineQuantity q
  | .batchBump _ q => batchQuantity q
  | .voidReturn _ _ q => lineQuantity q
  | .countAdd _ _ q => lineQuantity q
  | .countTake _ _ q => lineQuantity q
  | .keyFrame _ body _ => bodyFits body
  | .keyAnswer _ code => decide (code = .ack) || decide (code = .stale)
  | .hello _ body _ => bodyFits body
  | .status _ body _ => bodyFits body
  | .frameRejected _ kind _ => decide (kind ≠ 0x20)
  | .frameHandover _ f => f.fromRouter
  | .refreshAnswer _ _ shows => decide (shows.length ≤ 8) && shows.all Frame.isShow
  | .noticeRaise n => n.wf
  | .delayListJoin ref _ => ref.wf
  | .powerOnReset | .softReset _ | .run _ | .exchangeBaseLo _ | .exchangeBaseHi _ | .exchangeSize _ | .post _ | .notice _
  | .fault _ | .outcomeWrite | .busError _ => true
  | .nop _ | .openCheck _ _ | .park _ _ | .pickUp _ _ | .forcePickUp _ _ | .addLine _ _ _ _ _ _ _ _ _ _ | .voidLine _ _ _
  | .compLine _ _ _ | .setShare _ _ _ _ | .readCheck _ _ _ _ | .reopen _ _ | .exportClosed _ _ _
  | .setStand _ _ _ _ _ _ _ _ _ _ _ | .setTill _ _ _ _ | .standState _ _ _ | .cutOff _ _ | .closeDay _ => true
  | .setSplit _ _ _ _ _ _ _ _ _ _ _ | .quote _ _ | .tender _ _ _ _ _ _ | .voidTender _ _ _ | .settle _ _ => true
  | .setItem _ _ _ _ _ _ _ _ _ _ | .setBatch _ _ _ _ _ _ _ _ _ _ _ | .receiveStock _ _ _ | .countStock _ _ _
  | .restartBatch _ _ _ | .readItem _ _ => true
  | .fire _ _ _ | .prioritize _ _ _ | .recallTicket _ _ | .readStation _ _ _ _ | .setStation _ _ _ _ _
  | .setPace _ _ _ _ _ _ _ _ _ _ _ | .readDemand _ _ _ | .setNotices _ _ _ _ | .ackRestart _ => true
  | .checkCloseTold _ | .slotFreed _ | .bump _ _ | .recall _ _ | .fallbackChangeTkr _ | .shownSetAsk _ _ => true
  | .batchCancel _ | .lotExpiry _ | .batchTimerExpiry _ | .leadTimerExpiry _ | .paceChangeIsu _ _ | .gateTest | .isuDayClose
  | .tkrDayClose | .dmwDayClose | .pairingChange _ | .sampleTimerExpiry => true
  | .receiveGapTimeout _ | .frameSent _ | .statusTimerExpiry _ | .busyWaitExpiry _ | .probeTimerExpiry _ | .refreshRequest _
  | .reportTimerExpiry | .fillRetryHoldEnd | .byteArrival _ _ => true

end Sys2Proof
end

