-- ==== Sys2Proof/Tests/Slice0.lean ====
section
/-! SUPPORT. Tests: an ill-formed command for each check of `Instr.wf`; the worked cases of the spec, one step each; and for each
statement of Certificates/Slice0/Obligations.lean that has hypotheses, concrete states and operands that meet them together, a
clause at a time (`witness_<statement>_<clause>`). Every expected value is the spec's: its worked tables, or worked by hand
from its rules. -/

namespace Sys2Proof.Tests

open Sys2Proof Sys2Proof.Machine

/-! ### Helpers -/

/-- The state after a command; on a stop, the state itself. -/
def after (c : Instr) (s : State) : State :=
  match exec c s with
  | .next t => t
  | _ => s

def boss : Requester := { till := 1, authority := .supervisor }
def clerk : Requester := { till := 1, authority := .staff }
def rival : Requester := { till := 2, authority := .supervisor }
def office : Requester := { till := 0, authority := .supervisor }
def h0 : Handle := { slot := 0, gen := 0 }
def tag0 : Tag := { index := 0, gen := 0 }
def ref0 : LineRef := { check := h0, line := 0 }
def none32 : Word := 0xFFFFFFFF

/-- A line of an item, in a fire state. -/
def lineOf (x : ItemId) (q : Nat) (f : FireState) : Line :=
  { item := x, quantity := q, price := 100, deltas := [], taxClass := 0, restricted := false, stockMark := false,
    mode := .immediate, fire := f }

/-- An OPEN check of stand 0, held by till 1, with these lines and one payer. -/
def checkOf (lines : List Line) : Check :=
  { stand := 0, holder := some 1, priority := .normal, rates := [0, 0, 0, 0], levy := 0, increment := 5, weights := [1],
    lines := lines, due := dueTable lines [1] [0, 0, 0, 0] 0, tenders := [], ticketsOut := 0, ticketsFired := 0,
    orderReady := false, closeTime := none }

/-- Stand 0 open, ON_ENTRY, with increment 5; route 0 goes to station 0, the others nowhere. -/
def stand0 : Stand := { configured := true, state := .opened, increment := 5, routes := some 0 :: List.replicate 7 none }

/-- A part with a region of 16 pages, stand 0 and its tills 1 and 2, and in slot 0 the check given. -/
def shop (c : Check) : State :=
  { exu := { size := 16, run := true }
    cks := { stands := [(0, stand0)]
             tills := [(1, { stand := some 0, isOpen := true, held := if c.holder = some 1 then [h0] else [] }),
               (2, { stand := some 0, isOpen := true, held := if c.holder = some 2 then [h0] else [] })]
             slots := [(0, { check := some c })] } }

/-- The shop with its check CLOSED, on the closed list or, EXPORTED, on the exported list. -/
def endedCheck (state : CheckState) : Check := { checkOf [] with state := state, holder := none, closeTime := some 0 }
def endedShop (state : CheckState) : State :=
  { shop (endedCheck state) with cks := { (shop (endedCheck state)).cks with
      closedList := if state = .closed then [h0] else [], exportedList := if state = .exported then [h0] else [] } }

/-- Item 3 of price 500; item 4 stock-tracked, 10 on hand of which 4 are reserved; item 5 the batch item of slot 0. -/
def items : Table Item :=
  [(3, { isDefined := true, price := 500 }),
    (4, { isDefined := true, price := 500, prepRoute := 1, tracked := true, onHand := 10, reserved := 4, lowMark := 3 }),
    (5, { isDefined := true, price := 500, slot := some 0 })]

/-- The batch slot 0, in a mode, with lots of the counts given. -/
def slotOf0 (mode : BatchMode) (counts : List Nat) : Batch :=
  { item := some 5, mode := mode, interval := 60, baseSize := 2, capacity := 9, life := 60, lowMark := 3, leadDelay := 2,
    lots := counts.map (fun n => { count := n, expiry := 5000 }), cycle := 60 }

/-- The shop with items, and slot 0 as given. -/
def stocked (b : Batch) (c : Check) : State := { shop c with isu := { items := items, batches := [(0, b)] } }

/-- An order ticket of the check in slot 0, at station 0. -/
def orderTicket (state : TicketState) (slot : Option Nat) : Ticket :=
  { kind := .order 0 h0 7, station := 0, cls := .normal, fireTime := 0, firedAt := 0, state := state, slot := slot,
    shownTime := slot.map (fun _ => 0), focusDue := slot.map (fun _ => 30000), entries := [{ ref := .line ref0, item := 3, quantity := 2 }] }

/-- Station 0's link, in a state. -/
def linkOf (state : LinkState) : Link := { active := state != .offline, state := state }

/-- A line of stand 0, on the ticket of record 0, as it stood when it was voided. -/
def voidedAs (was : FireState) : VoidedLine := { was := was, stand := 0, ticket := some tag0, drawn := false }

/-! ### Ill-formed commands -/

theorem test_wf_ignored_write_outside_window : (Instr.registerWriteIgnored 4096 4 0).wf = false := by decide
theorem test_wf_ignored_write_that_is_taken : (Instr.registerWriteIgnored 0x14 4 0).wf = false := by decide
theorem test_wf_store_above_64_bits : (Instr.walkerTakeSlip [(18446744073709551616, 0)]).wf = false := by decide
theorem test_wf_firing_without_lines : (Instr.firing h0 [] .fire).wf = false := by decide
theorem test_wf_firing_not_rising : (Instr.firing h0 [1, 1] .fire).wf = false := by decide
theorem test_wf_firing_line_40 : (Instr.firing h0 [0, 40] .fire).wf = false := by decide
theorem test_wf_delay_expiry_line_40 : (Instr.delayExpiry { check := h0, line := 40 }).wf = false := by decide
theorem test_wf_delay_join_line_40 : (Instr.delayListJoin { check := h0, line := 40 } 0).wf = false := by decide
theorem test_wf_kitchen_void_line_40 : (Instr.kitchenVoid { check := h0, line := 40 } 0 1 (voidedAs .held)).wf = false := by decide
theorem test_wf_kitchen_void_quantity_100 : (Instr.kitchenVoid ref0 0 100 (voidedAs .held)).wf = false := by decide
theorem test_wf_batch_ask_quantity_0 : (Instr.batchTicketAsk 0 0).wf = false := by decide
theorem test_wf_batch_bump_quantity_1000 : (Instr.batchBump 0 1000).wf = false := by decide
theorem test_wf_focus_tag_1536 : (Instr.focusTimerExpiry { index := 1536, gen := 0 }).wf = false := by decide
theorem test_wf_late_tag_1536 : (Instr.lateTimerExpiry { index := 1536, gen := 0 }).wf = false := by decide
theorem test_wf_rejoin_without_count : (Instr.linkStateTkr 0 .rejoining none).wf = false := by decide
theorem test_wf_rejoin_count_3 : (Instr.linkStateTkr 0 .rejoining (some 3)).wf = false := by decide
theorem test_wf_rejoin_count_9 : (Instr.linkStateTkr 0 .rejoining (some 9)).wf = false := by decide
theorem test_wf_count_with_live : (Instr.linkStateTkr 0 .live (some 4)).wf = false := by decide
theorem test_wf_reserve_0 : (Instr.reserve 0 0).wf = false := by decide
theorem test_wf_release_100 : (Instr.release 0 100).wf = false := by decide
theorem test_wf_commit_0 : (Instr.commit 0 0).wf = false := by decide
theorem test_wf_uncommit_line_40 : (Instr.uncommit { check := h0, line := 40 } 0 1).wf = false := by decide
theorem test_wf_uncommit_100 : (Instr.uncommit ref0 0 100).wf = false := by decide
theorem test_wf_draw_100 : (Instr.warmerDraw 0 100).wf = false := by decide
theorem test_wf_void_return_0 : (Instr.voidReturn 0 none 0).wf = false := by decide
theorem test_wf_count_add_0 : (Instr.countAdd 0 none 0).wf = false := by decide
theorem test_wf_count_take_100 : (Instr.countTake 0 none 100).wf = false := by decide
theorem test_wf_key_body_65 : (Instr.keyFrame 0 (List.replicate 65 0) true).wf = false := by decide
theorem test_wf_hello_body_65 : (Instr.hello 0 (List.replicate 65 0) true).wf = false := by decide
theorem test_wf_status_body_65 : (Instr.status 0 (List.replicate 65 0) true).wf = false := by decide
theorem test_wf_key_answer_busy : (Instr.keyAnswer 0 .busy).wf = false := by decide
theorem test_wf_rejected_status : (Instr.frameRejected 0 0x20 true).wf = false := by decide
theorem test_wf_handover_slot_8 : (Instr.frameHandover 0 (.clearSlot 8)).wf = false := by decide
theorem test_wf_handover_no_entries : (Instr.frameHandover 0 (.showTicket 0 tag0 0 .normal false [])).wf = false := by decide
theorem test_wf_handover_13_marks : (Instr.frameHandover 0 (.mark 0 tag0 false (List.replicate 13 true))).wf = false := by decide
theorem test_wf_handover_probe : (Instr.frameHandover 0 .probe).wf = false := by decide
theorem test_wf_refresh_answer_9 : (Instr.refreshAnswer 0 0
    (List.replicate 9 (.showTicket 0 tag0 0 .normal false []))).wf = false := by decide
theorem test_wf_refresh_answer_probe : (Instr.refreshAnswer 0 0 [.probe]).wf = false := by decide
theorem test_wf_notice_6_values : (Instr.noticeRaise { kind := .waste, subject := 0, values := [0, 0, 0, 0, 0, 0] }).wf = false := by
  decide
theorem test_wf_accepts_a_firing : (Instr.firing h0 [0, 39] .fire).wf = true := by decide

/-! ### The worked cases of the spec -/

/-- Chapter 2, the first worked case: its three lines. -/
def groupLines : List Line :=
  [{ lineOf 1 2 .held with price := 650 }, { lineOf 2 3 .held with price := 895, taxClass := 1, share := .payers 3 },
    { lineOf 3 1 .held with price := 1100, deltas := [150], share := .payers 4 }]

def groupDue : DueTable := dueTable groupLines [1, 1, 1] [800, 1500, 0, 0] 500

theorem test_split_first_case : groupDue.rows.map PayerRow.due = [2101, 2101, 1902] ∧ groupDue.total = 6104 ∧
    groupDue.rows.map PayerRow.taxes = [[35, 201, 0, 0], [34, 202, 0, 0], [135, 0, 0, 0]] := by decide

/-- Chapter 2, "Unequal weights, a clamped line and a comped line". -/
theorem test_split_limit_case :
    (dueTable [{ lineOf 1 3 .held with price := 699, taxClass := 1 },
        { lineOf 2 1 .held with price := 450, deltas := [-600], share := .payers 8 },
        { lineOf 3 1 .held with price := 500, taxClass := 1, comp := true },
        { lineOf 4 1 .held with price := 601, taxClass := 1, share := .payers 14 }]
      [2, 1, 1, 1] [800, 1500, 0, 0] 0).rows.map PayerRow.due = [965, 713, 713, 712] := by decide

/-- Chapter 2, "A payer with nothing to pay". -/
theorem test_split_nothing_to_pay :
    (dueTable [{ lineOf 1 1 .held with price := 1 }] [1, 1] [1000, 0, 0, 0] 0).rows.map (fun r => (r.due, r.paid)) =
      [(1, false), (0, true)] := by decide

/-- Chapter 2, "An unassigned line". -/
theorem test_split_unassigned :
    (let d := dueTable (groupLines ++ [{ lineOf 1 1 .held with price := 700, share := .unassigned }]) [1, 1, 1]
        [800, 1500, 0, 0] 500
     d.complete = false ∧ d.total = 6895 ∧ d.classTaxes = [260, 403, 0, 0]) := by decide

/-- The group's check with payer 2 still to pay, and that row's answer to a cash tender (chapter 2, "Cash cases"). -/
def owing (r i : Nat) : Check :=
  { checkOf [{ lineOf 1 1 .held with price := r }] with increment := i }

def cashAnswer (r i a : Nat) : Option Answer :=
  (after (.tender clerk 0 0 0 (BitVec.ofNat 32 a) 9) (shop (owing r i))).exu.answer

theorem test_cash_rounds_down : cashAnswer 1902 5 2000 = some (.done [0, 1902, 100, BitVec.ofInt 32 (-2), 0, 0, 2, 0]) := by decide
theorem test_cash_half_rounds_up : cashAnswer 1905 10 2000 = some (.done [0, 1905, 90, 5, 0, 0, 2, 0]) := by decide
theorem test_cash_partial : (after (.tender clerk 0 0 0 1899 9) (shop (owing 1902 5))).exu.answer =
    some (.done [0, 1899, 0, 0, 0, 3, 1, 0]) := by decide
theorem test_cash_below_rounded : cashAnswer 1903 5 1904 = some (.done [0, 1903, 0, 1, 0, 0, 2, 0]) := by decide
theorem test_cash_rounded_to_nothing : cashAnswer 2 5 1 = some (.done [0, 2, 1, BitVec.ofInt 32 (-2), 0, 0, 2, 0]) := by decide
theorem test_cash_increment_25 : cashAnswer 1913 25 2000 = some (.done [0, 1913, 75, 12, 0, 0, 2, 0]) := by decide

/-- Chapter 3, "paying off the three-payer check", steps 1 and 4. -/
def group : Check := { checkOf groupLines with weights := [1, 1, 1], rates := [800, 1500, 0, 0], levy := 500, due := groupDue }

theorem test_card_over_tender : (after (.tender clerk 0 1 1 2200 9) (shop group)).exu.answer =
    some (.refused .overTender none) := by decide
theorem test_voucher_forfeits :
    (after (.tender clerk 0 0 2 1000 9) (after (.tender clerk 0 0 2 1500 9) (shop group))).exu.answer =
      some (.done [1, 601, 0, 0, 399, 0, 1, 0]) := by decide

/-- Chapter 1, "a forced pick-up against a full till", steps 1 and 4. -/
theorem test_pick_up_held : (after (.pickUp { till := 2, authority := .staff } 0) (shop (checkOf []))).exu.answer =
    some (.refused .held (some 1)) := by decide
theorem test_force_pick_up_told : (after (.forcePickUp rival 0) (shop (checkOf []))).handovers =
    [.noticeRaise { kind := .checkTaken, subject := 0, values := [1, 2] }] := by decide

/-- Chapter 4, "one warmer through an interval": the expiry at 3,900,000 orders 35. -/
def pretzels : State :=
  { uptime := 3900000
    exu := { dayClock := 3900000 }
    cks := { stands := [(2, { configured := true, state := .opened, routes := [some 7] })] }
    isu := { items := [(9, { isDefined := true, slot := some 4 })]
             batches := [(4, { item := some 9, mode := .paced, home := 2, interval := 300, baseSize := 24, capacity := 60, life := 900,
                               lowMark := 12, lots := [{ count := 10, expiry := 4500000 }], batchTimer := .running 3900000,
                               cycle := 300 })] }
    slc := { links := [(7, linkOf .live)] }
    dmw := { filters := [(4, { fast := 24 })] } }

theorem test_batch_size_35 : ((after (.batchTimerExpiry 4) pretzels).ticketAt 0).map (fun t => t.entries.map Entry.quantity) =
    some [35] := by decide
theorem test_batch_timer_reloads : ((after (.batchTimerExpiry 4) pretzels).batch 4).batchTimer = .running 4200000 := by decide
theorem test_draw_takes_the_oldest :
    ((after (.warmerDraw 4 8) (pretzels.setBatch 4 { pretzels.batch 4 with
      lots := [{ count := 10, expiry := 4500000 }, { count := 35, expiry := 5040000 }] })).batch 4).lots =
      [{ count := 2, expiry := 4500000 }, { count := 35, expiry := 5040000 }] := by decide
theorem test_lot_expiry_wastes : (after (.lotExpiry 4) pretzels).handovers = [WasteNotice 9 0 10] := by decide

/-- Chapter 6, "a SUITE ticket waits out a focus minimum": at 1,065,000 the focus timer of D (slot 3) runs out. -/
def grillTicket (stand : StandId) (cls : TicketClass) (fire : Word) (shown : Option (Nat × Word × Nat)) : Ticket :=
  { kind := .order stand h0 5, station := 9, cls := cls, fireTime := fire, firedAt := fire.toNat, state := if shown.isSome then .shown else .waiting,
    slot := shown.map (fun e => e.1), shownTime := shown.map (fun e => e.2.1), focusDue := shown.map (fun e => e.2.2),
    entries := [] }

def grill : State :=
  { uptime := 1060000
    exu := { dayClock := 1060000 }
    dmw := { paces := [(1, { level := .busy })] }
    slc := { links := [(9, linkOf .live)] }
    tkr := { tickets := [(40, { ticket := some (grillTicket 1 .normal 1000000 (some (0, 1010000, 1030000))) }),
               (41, { ticket := some (grillTicket 2 .normal 1020000 (some (1, 1030000, 1060000))) }),
               (44, { ticket := some (grillTicket 1 .express 1025000 (some (2, 1040000, 1060000))) }),
               (47, { ticket := some (grillTicket 1 .normal 1041000 (some (3, 1045000, 1065000))) }),
               (52, { ticket := some (grillTicket 2 .normal 1046000 none) }),
               (55, { ticket := some (grillTicket 2 .suite 1050000 none) })]
             queues := [(9, { waiting := [55, 52], shown := [40, 41, 44, 47] })] } }

theorem test_suite_displaces_the_newest : ((after (.focusTimerExpiry { index := 47, gen := 0 }) grill).queues 9) =
    { waiting := [47, 52], shown := [40, 41, 44, 55] } := by decide +kernel
theorem test_suite_waits_at_1060000 : ((after (.focusTimerExpiry { index := 41, gen := 0 }) grill).queues 9).waiting = [55, 52] := by
  decide +kernel

/-- Chapter 7, "a head goes dark": the second failure at 2,000,080 makes the link DARK and loads the probe timer. -/
def silent : State :=
  { uptime := 2000080
    slc := { links := [(9, { linkOf .live with
      count := 6, failures := 1, statusDue := some 2000080
      inFlight := some { frame := .mark 2 tag0 true [], isProbe := false, rejoin := false, sent := true }
      outbox := [{ frame := .mark 4 tag0 true [] }] })] } }

theorem test_second_failure_is_dark : ((after (.statusTimerExpiry 9) silent).link 9) =
    { linkOf .dark with count := 6, probeDue := some 2002080 } := by decide
theorem test_hello_of_3_counts_4 : ((after (.hello 9 [3] true) silent).link 9).count = 4 := by decide

/-- Chapter 8, "a stand through an interval": periods 1, 2 and 16. -/
def watched (p : Pace) : Pace :=
  { p with busyOn := 96, busyOff := 48, rushOn := 320, rushOff := 192 }

theorem test_period_1_rises_to_busy :
    (let p := (after .sampleTimerExpiry { dmw := { paces := [(2, watched { filter := { count := 60, fast := 320, slow := 320 } })] } }).pace 2
     (p.filter.fast, p.filter.slow, p.level) = (480, 322, Level.busy)) := by decide +kernel
theorem test_period_16_moves_down :
    (let p := (after .sampleTimerExpiry { dmw := { paces := [(2, watched { filter := { count := 5, fast := 95, slow := 322 }, halt := 14 })] } }).pace 2
     (p.filter.fast, p.filter.slow, p.halt) = (91, 318, 0)) := by decide +kernel

theorem test_level_change_brings_its_values :
    (let t := after (.setPace boss 2 2 11 12 13 301 302 303 0 0)
       (after .sampleTimerExpiry { dmw := { paces := [(2, watched { filter := { count := 60, fast := 320, slow := 320 }
                                                                    focusBusy := 7, lateBusy := 77 })] } })
     t.handovers.filter (fun c => match c with | .paceChangeTkr .. => true | _ => false) =
       [.paceChangeTkr 2 ⟨.busy, 7, 77⟩, .paceChangeTkr 2 ⟨.busy, 12, 302⟩]) := by decide +kernel

/-- Chapter 9, "one chain of three slips": the second slip is refused RANGE, and the third reports the dues. -/
theorem test_chain_split_of_9 : (after (.setSplit clerk 0 9 1 1 1 1 1 1 1 1) (shop (checkOf []))).exu.answer =
    some (.refused .range none) := by decide
theorem test_chain_quote :
    (after (.quote clerk 0) (shop { checkOf [] with
      due := dueTable [{ lineOf 1 1 .held with price := 500 }, { lineOf 2 2 .held with price := 650 }] [1] [800, 0, 0, 0] 500 })).exu.answer =
      some (.done [2034, 1, 2034, 0, 0, 0, 0, 0, 0, 0, 0, 0]) := by decide

/-- Chapter 10, "a slow host in the interval rush": the second WASTE merges into the first, and closing the window opens page 813. -/
def slowHost : State :=
  { exu := { size := 16, dayClock := 5006000 }
    ntc := { windowOpen := true, line := true, sequence := 812
             buffer := [{ notice := { kind := .waste, subject := 9, values := [0, 2] }, time := 5002000 },
               { notice := { kind := .ticketState, subject := 300, values := [2, 9] }, time := 5004000 }] } }

theorem test_waste_merges : ((after (.noticeRaise { kind := .waste, subject := 9, values := [0, 3] }) slowHost).ntc.buffer.map
    (fun e => e.notice.values)) = [[0, 5], [2, 9]] := by decide
theorem test_next_page_opens : (let t := after (.notice 1) slowHost
    (t.ntc.sequence, t.ntc.buffer, t.wordAt 0)) = (813, [], 0x02010000 + 813) := by decide +kernel

/-- R139, R209: the check byte makes kind, length, body and check byte add up to 0: a PROBE is 14H, 0, ECH. -/
theorem test_probe_bytes : frameBytes .probe = [0xC3, 0x14, 0x00, 0xEC] := by decide
theorem test_status_bytes : frameBytes (.status .ack) = [0xC3, 0x20, 0x01, 0x01, 0xDE] := by decide

/-- No word spells a command: the table gives no row bits. -/
theorem test_no_word_spells_a_command : decodeTableWord 32 0 = none := by decide

/-! ### Witnesses: the step, the exchange region, the notices -/

/-- Two commands wait, and a hand-over. -/
def waiting2 : State := { pending := [.gateTest, .ackRestart clerk], handovers := [.nop clerk] }

theorem witness_step_front : waiting2.pending = .gateTest :: [.ackRestart clerk] := rfl
theorem witness_step_handover : ({ waiting2 with pending := [] } : State).handovers = .nop clerk :: [] := rfl
theorem witness_step_idle : State.reset.pending = [] ∧ nextEvent State.reset = none := by decide +kernel

/-- Two batch bumps from the router to ISU, and a frame from the router to the links between them. -/
def routed : List Instr := [.batchBump 0 2, .frameHandover 0 (.clearSlot 0), .batchBump 1 3]

theorem witness_step_taken_in_turn : routed = [.batchBump 0 2] ++ .frameHandover 0 (.clearSlot 0) :: [.batchBump 1 3] ∧
    (∀ e ∈ [Instr.batchBump 0 2], pathOf e ≠ pathOf (.frameHandover 0 (.clearSlot 0))) := by decide
theorem witness_step_not_in_turn : Instr.batchBump 0 2 ≠ .batchBump 1 3 ∧ pathOf (.batchBump 0 2) = pathOf (.batchBump 1 3) := by decide
theorem test_later_hand_over_waits : (({ handovers := routed } : State).taken (.batchBump 1 3)).handovers = routed ∧
    (({ handovers := routed } : State).taken (.frameHandover 0 (.clearSlot 0))).handovers = [.batchBump 0 2, .batchBump 1 3] := by
  decide

/-- A region of 16 pages, RUN 1. -/
def region : State := { exu := { size := 16, run := true } }

theorem witness_registers_ignored : (2 ≠ 4 ∧ 3 ≠ 4) ∧ 0x05 % 4 ≠ 0 ∧ 0x20 ≤ 0x20 := by decide
theorem witness_registers_read : State.reset.exu.chains.length ≤ 8 ∧
    ({ exu := { chains := List.replicate 8 4096 } } : State).exu.chains.length ≤ 8 := by decide
theorem test_control_write : registerWrite 0x04 4 1 = .run true ∧ registerWrite 0x04 4 2 = .softReset false ∧
    registerWrite 0x04 4 0xFFFFFFFF = .softReset true ∧ registerWrite 0x04 2 1 = .registerWriteIgnored 4 2 1 := by decide
theorem test_window_writes : registerWrite 0x14 4 4096 = .post 4096 ∧ registerWrite 0x1C 4 64 = .fault 64 ∧
    registerWrite 0x00 4 7 = .registerWriteIgnored 0 4 7 ∧ registerWrite 0x20 4 7 = .registerWriteIgnored 32 4 7 := by decide
theorem test_window_reads :
    (let s : State := { exu := { size := 16, run := true, chains := [4096, 8192], fault := 0x41 }
                        ntc := { windowOpen := true, line := true, sequence := 813 } }
     s.readRegister 0x00 4 = 0x24600001 ∧ s.readRegister 0x14 4 = 0x202 ∧ s.readRegister 0x18 4 = 0x032D0001 ∧
       s.readRegister 0x1C 4 = 0x41 ∧ s.readRegister 0x14 2 = 0) := by decide

theorem witness_registers_stopped : State.reset.exu.run = false := rfl
theorem witness_registers_running : region.exu.run = true := rfl
theorem witness_post_taken_first : SlipOffset region 4096 ∧ region.exu.chains.length < 8 := by unfold SlipOffset; decide
theorem witness_post_taken_last :
    (let s : State := { exu := { size := 16, chains := List.replicate 7 4096 } }
     SlipOffset s 65472 ∧ s.exu.chains.length < 8) := by unfold SlipOffset; decide
theorem witness_post_overflow :
    (let s : State := { exu := { size := 16, chains := List.replicate 8 4096 } }
     SlipOffset s 4096 ∧ 8 ≤ s.exu.chains.length) := by unfold SlipOffset; decide
theorem witness_post_outside : ¬ SlipOffset region 65536 ∧ ¬ SlipOffset region 4032 ∧ ¬ SlipOffset region 4100 ∧
    ¬ SlipOffset State.reset 4096 := by unfold SlipOffset; decide

/-- What the host writes for a slip at 4,096: mark, kind, link, authority, outcome. -/
def slipStores (mark kind link authority outcome : Byte) : List Host.Cell :=
  [(4096, mark), (4097, kind), (4101, link), (4106, 1), (4107, authority), (4108, outcome)]

/-- A chain at 4,096, at a place. -/
def posted (place : Option Place) : State := { exu := { size := 16, run := true, chains := [4096], place := place } }

/-- What the statements about the walker suppose of a slip that passes the tests of R185. -/
def TakesAt (s0 : State) (stores : List Host.Cell) (p : Place) : Prop :=
  (let s := hostStores stores (s0.taken (.walkerTakeSlip stores))
   s.exu.run = true ∧ s.exu.inWork = none ∧ s.exu.chains = [4096] ∧
    p = s.exu.place.getD { next := 4096, slips := 0, refused := 0, headTag := 0 } ∧ SlipOffset s p.next ∧
    s.byteAt (s.busAddress p.next.toNat) = 0x5C ∧ s.byteAt (s.busAddress (p.next.toNat + 12)) = 0 ∧ p.slips < 256)

def place0 : Place := { next := 4096, slips := 0, refused := 0, headTag := 0 }
def place255 : Place := { next := 4096, slips := 255, refused := 3, headTag := 7 }
def place256 : Place := { next := 4096, slips := 256, refused := 3, headTag := 7 }

theorem witness_walker_request : TakesAt (posted none) (slipStores 0x5C 0 0 0 0) place0 := by
  unfold TakesAt SlipOffset; decide +kernel
theorem witness_walker_last_slip : TakesAt (posted (some place255)) (slipStores 0x5C 0x1F 0 1 0) place255 := by
  unfold TakesAt SlipOffset; decide +kernel
theorem witness_walker_bad_authority : TakesAt (posted none) (slipStores 0x5C 0 0 2 0) place0 := by
  unfold TakesAt SlipOffset; decide +kernel
theorem witness_walker_bad_kind : TakesAt (posted none) (slipStores 0x5C 0x62 0 0 0) place0 := by
  unfold TakesAt SlipOffset; decide +kernel
theorem test_slip_is_handed_on : (after (.walkerTakeSlip (slipStores 0x5C 0x1F 0 1 0)) (posted none)).handovers =
    [.closeDay boss] := by decide +kernel

/-- What the statements about an abandoned chain suppose of the walker, with no host store. -/
def WalksAt (s0 : State) (head : Word) (p : Place) : Prop :=
  (let s := hostStores [] (s0.taken (.walkerTakeSlip []))
   s.exu.run = true ∧ s.exu.inWork = none ∧ s.exu.chains = head :: [] ∧
    p = s.exu.place.getD { next := head, slips := 0, refused := 0, headTag := 0 })

theorem witness_walker_stopped : (hostStores [] (State.reset.taken (.walkerTakeSlip []))).exu.run = false := rfl
theorem witness_walker_out_of_range : WalksAt (posted (some { place0 with next := 65536 })) 4096 { place0 with next := 65536 } ∧
    ¬ SlipOffset (hostStores [] ((posted (some { place0 with next := 65536 })).taken (.walkerTakeSlip []))) 65536 := by
  unfold WalksAt SlipOffset; decide
theorem witness_walker_no_mark : WalksAt (posted none) 4096 place0 ∧
    SlipOffset (hostStores [] ((posted none).taken (.walkerTakeSlip []))) 4096 ∧
    (posted none).byteAt ((posted none).busAddress 4096) ≠ 0x5C := by unfold WalksAt SlipOffset; decide

/-- A chain whose slip at 4,096 is DONE, and one at its 257th slip. -/
def postedOver (outcome : Byte) (place : Option Place) : State :=
  { posted place with mem := [(4096, 0x5C)] ++ if outcome = 0 then [] else [(4108, outcome)] }

theorem witness_walker_not_new : WalksAt (postedOver 2 none) 4096 place0 ∧
    (postedOver 2 none).byteAt 4096 = 0x5C ∧ (postedOver 2 none).byteAt 4108 ≠ 0 := by unfold WalksAt; decide
theorem witness_walker_too_long : WalksAt (postedOver 0 (some place256)) 4096 place256 ∧
    (postedOver 0 (some place256)).byteAt 4096 = 0x5C ∧ (postedOver 0 (some place256)).byteAt 4108 = 0 ∧
    256 ≤ place256.slips := by unfold WalksAt; decide

/-- A slip in work at 4,096 with this link, answered. -/
def answered (link : Word) (a : Answer) : State :=
  { exu := { size := 16, run := true, chains := [4096], place := some place0, inWork := some { offset := 4096, link := link },
             answer := some a } }

/-- What the statement about the outcome supposes. -/
def HasOutcome (s : State) (w : Work) (a : Answer) : Prop :=
  s.exu.inWork = some w ∧ s.exu.answer = some a ∧ s.exu.chains = 4096 :: [] ∧ s.exu.place = some place0

theorem witness_outcome_done_ends : HasOutcome (answered 0 (.done [1])) { offset := 4096, link := 0 } (.done [1]) := by
  unfold HasOutcome; decide
theorem witness_outcome_done_goes_on : HasOutcome (answered 4160 (.done [])) { offset := 4096, link := 4160 } (.done []) := by
  unfold HasOutcome; decide
theorem witness_outcome_held : HasOutcome (answered 0 (.refused .held (some 2))) { offset := 4096, link := 0 }
    (.refused .held (some 2)) := by unfold HasOutcome; decide
theorem witness_outcome_refused : HasOutcome (answered 0 (.refused .range none)) { offset := 4096, link := 0 }
    (.refused .range none) := by unfold HasOutcome; decide

/-- The slip of `answered`, with the region then cut down to 16 pages, past which the slip lies. -/
def cutOffSlip : State :=
  { answered 0 (.done [1]) with exu := { (answered 0 (.done [1])).exu with run := false, inWork := some { offset := 65536, link := 0 } } }

theorem witness_outcome_in_the_region : SlipOffset (answered 0 (.done [1])) 4096 ∧ ¬ SlipOffset cutOffSlip 65536 := by
  unfold SlipOffset; decide
theorem test_outcome_outside_the_region_is_not_written :
    (let t := after .outcomeWrite cutOffSlip
     (t.mem, t.exu.inWork, t.exu.chains, t.handovers.length)) = ([], none, [], 1) := by decide +kernel

theorem witness_bus_slip_read : (posted none).exu.chains = 4096 :: [] ∧ (posted none).exu.run = true ∧
    (posted none).exu.inWork = none ∧ SlipOffset ((posted none).taken (.busError .slipRead)) 4096 := by
  unfold SlipOffset; decide
theorem witness_bus_taken_write : (postedOver 0 none).exu.inWork = none ∧
    SlipOffset ((postedOver 0 none).taken (.busError (.takenWrite true))) 4096 ∧ (postedOver 0 none).byteAt 4096 = 0x5C ∧
    (postedOver 0 none).byteAt 4108 = 0 ∧ place0.slips < 256 := by unfold SlipOffset; decide

/-- A READ_STATION of station 23 in work: its buffer is next to the slip. -/
def reading : State :=
  { posted (some place0) with
    exu := { (posted (some place0)).exu with inWork := some { offset := 4096, link := 0 } }
    handovers := [.readStation clerk 23 4160 16] }

/-- A buffer of at most 1,024 bytes right behind the slip in work at 4,096, in a region of 16 pages. -/
theorem buffer_behind_slip {s : State} (n : Word) (h1 : s.exu.size.toNat = 16) (hn : n.toNat ≤ 1024)
    (hw : s.exu.inWork = some { offset := 4096, link := 0 }) : BufferOffset s 4160 n := by
  have ho : (4160 : Word).toNat = 4160 := rfl
  refine ⟨by decide, by decide, by omega, by omega, by omega, ?_⟩
  intro w h
  rw [hw] at h
  cases Option.some.inj h
  exact Or.inr (Or.inl (by decide))

theorem gate_test_not_buffer {c : Instr} (hp : pathOf .gateTest ≠ pathOf c) :
    ∀ d ∈ [Instr.gateTest], ¬ BufferRequest d ∧ pathOf d ≠ pathOf c := by
  intro d hd
  cases List.mem_singleton.1 hd
  exact ⟨fun ⟨_, _, _, _, h⟩ => by rcases h with h | h | h <;> (cases h), hp⟩

/-- The slip at 4,096 in work, and its request behind a gate test. -/
def inWorkAt (c : Instr) (s : State) : State :=
  { s with
    exu := { size := 16, run := true, chains := [4096], place := some place0, inWork := some { offset := 4096, link := 0 } }
    handovers := [.gateTest, c] }

theorem witness_bus_buffer_write : (reading.taken (.busError (.bufferWrite 5))).handovers = .readStation clerk 23 4160 16 :: [] ∧
    WouldWrite (reading.taken (.busError (.bufferWrite 5))) (.readStation clerk 23 4160 16) 4160 16
      (stationHeader (reading.taken (.busError (.bufferWrite 5))) 23) := by
  refine ⟨by decide, buffer_behind_slip _ (by decide) (by decide) (by decide), .inr (.inl ⟨clerk, 23, 23, rfl, by decide, by decide, ?_⟩)⟩
  decide +kernel
theorem witness_bus_read_check : (let s := (inWorkAt (.readCheck clerk 0 4160 148) (shop (checkOf []))).taken (.busError (.bufferWrite 148))
    s.handovers = [.gateTest] ++ .readCheck clerk 0 4160 148 :: [] ∧
    (∀ d ∈ [Instr.gateTest], ¬ BufferRequest d ∧ pathOf d ≠ pathOf (.readCheck clerk 0 4160 148)) ∧
    WouldWrite s (.readCheck clerk 0 4160 148) 4160 148 (checkRecord h0 (checkOf []))) :=
  ⟨by decide, gate_test_not_buffer (by decide), buffer_behind_slip _ (by decide) (by decide) (by decide),
    .inl ⟨clerk, 0, h0, checkOf [], rfl, by decide, by decide, by decide, rfl, by decide⟩⟩
theorem witness_bus_export : (let s := (inWorkAt (.exportClosed boss 4160 148) (endedShop .closed)).taken (.busError (.bufferWrite 0))
    s.handovers = [.gateTest] ++ .exportClosed boss 4160 148 :: [] ∧
    (∀ d ∈ [Instr.gateTest], ¬ BufferRequest d ∧ pathOf d ≠ pathOf (.exportClosed boss 4160 148)) ∧
    WouldWrite s (.exportClosed boss 4160 148) 4160 148 (checkRecord h0 (endedCheck .exported))) := by
  refine ⟨by decide, gate_test_not_buffer (by decide), buffer_behind_slip _ (by decide) (by decide) (by decide),
    .inr (.inr ⟨boss, [(h0, endedCheck .closed)], [], rfl, by decide, by decide, ?_, by decide, (fun _ _ h => nomatch h), ?_⟩)⟩
  · intro e he
    cases List.mem_singleton.1 he
    exact ⟨by decide, by decide⟩
  · exact (List.append_nil _).symm
theorem test_bus_error_marks_no_check :
    (let t := after (.busError (.bufferWrite 148)) (inWorkAt (.exportClosed boss 4160 148) (endedShop .closed))
     (t.cks.closedList, t.cks.exportedList, t.exu.fault, t.exu.chains)) = ([h0], [], 64, []) := by decide +kernel
theorem test_failed_page_fill_holds :
    (let t := after (.notice 1) (after (.busError (.pageFill 5)) slowHost)
     (t.ntc.sequence, t.ntc.buffer.length, t.exu.fault, t.ntc.holdDue, t.exu.chains)) = (812, 2, 64, some 1000, []) := by decide +kernel
theorem witness_bus_outcome_write :
    ((answered 0 (.done [1])).taken (.busError (.outcomeWrite 48))).exu.answer = some (.done [1]) := by decide

theorem witness_notices_event : boss.authority = .supervisor ∧ 250 ≤ (250 : Word).toNat ∧ (250 : Word).toNat ≤ 10000 ∧
    (65535 : Word).toNat ≤ 65535 := by decide
theorem witness_notices_periodic : boss.authority = .supervisor ∧ 250 ≤ (10000 : Word).toNat ∧ (10000 : Word).toNat ≤ 10000 ∧
    2 ≤ (2 : Word).toNat := by decide
theorem witness_notices_refused : clerk.authority = .staff ∧ ((249 : Word).toNat < 250 ∧ 10000 < (10001 : Word).toNat ∧
    65535 < (65536 : Word).toNat) := by decide

/-- A notice about lot expiry of item 9, and a buffer of so many notices about other stands' pace. -/
def wasteOf9 : Notice := { kind := .waste, subject := 9, values := [0, 2] }
def buffered (n : Nat) : State :=
  { ntc := { buffer := List.replicate n { notice := { kind := .unsent, subject := 1, values := [] }, time := 0 } } }

theorem witness_notice_masked : (({ ntc := { mask := 512 } } : State).taken (.noticeRaise wasteOf9)).ntc.mask.getLsbD
    wasteOf9.kind.code = true := by decide
theorem witness_notice_merged :
    (let s : State := { ntc := { buffer := [{ notice := { wasteOf9 with values := [1, 7] }, time := 0 }, { notice := wasteOf9, time := 5 }] } }
     s.ntc.mask.getLsbD wasteOf9.kind.code = false ∧
     s.ntc.buffer = [{ notice := { wasteOf9 with values := [1, 7] }, time := 0 }] ++ { notice := wasteOf9, time := 5 } :: [] ∧
     (∀ x ∈ [({ notice := { wasteOf9 with values := [1, 7] }, time := 0 } : NoticeEntry)], ¬ SameSubject x.notice wasteOf9) ∧
     SameSubject wasteOf9 wasteOf9) := by unfold SameSubject; decide
theorem witness_notice_joins : (∀ x ∈ (buffered 127).ntc.buffer, ¬ SameSubject x.notice wasteOf9) ∧
    (buffered 127).ntc.buffer.length < 128 := by
  refine ⟨?_, by decide +kernel⟩
  intro x hx
  cases List.eq_of_mem_replicate hx
  unfold SameSubject; decide
theorem witness_notice_dropped : (∀ x ∈ (buffered 128).ntc.buffer, ¬ SameSubject x.notice wasteOf9) ∧
    128 ≤ (buffered 128).ntc.buffer.length := by
  refine ⟨?_, by decide +kernel⟩
  intro x hx
  cases List.eq_of_mem_replicate hx
  unfold SameSubject; decide

theorem witness_window_closes : (1 : Word) = 1 ∧ slowHost.ntc.windowOpen = true := by decide
theorem witness_window_ignored : (2 : Word) ≠ 1 ∧ State.reset.ntc.windowOpen = false := by decide
theorem witness_report_due : ({ ntc := { reportDue := some 1000 } } : State).ntc.reportDue = some 1000 := rfl
theorem witness_hold_due : ({ ntc := { holdDue := some 1000 } } : State).ntc.holdDue = some 1000 := rfl
theorem witness_page_fills : slowHost.ntc.fillFails = none ∧ slowHost.ntc.buffer[1]? =
    some { notice := { kind := .ticketState, subject := 300, values := [2, 9] }, time := 5004000 } := by decide
theorem witness_page_fails : ({ slowHost with ntc := { slowHost.ntc with fillFails := some 5 } } : State).ntc.fillFails = some 5 := rfl

/-! ### Witnesses: checks, tills and stands -/

/-- A table that lists the same record at every number below `n`. -/
def fullTable {α : Type} (n : Nat) (v : α) : Table α := (List.range' 0 n).map (fun i => (i, v))

theorem read_fullTable {α : Type} (d v : α) (n : Nat) : ∀ a k, a ≤ k → k < a + n →
    Table.read d ((List.range' a n).map (fun i => (i, v))) k = v := by
  induction n with
  | zero => intro a k h1 h2; omega
  | succ n ih =>
    intro a k h1 h2
    simp only [List.range'_succ, List.map_cons, Table.read]
    split
    · rfl
    · exact ih (a + 1) k (by omega) (by omega)

/-- The shop with every slot in use, and the oldest exported checks given. -/
def crowded (exported : List Handle) : State :=
  { shop (checkOf []) with cks := { (shop (checkOf [])).cks with
      slots := fullTable 1024 { check := some { checkOf [] with state := .exported, holder := none } }, exportedList := exported } }

theorem crowded_slot (l : List Handle) (k : BitVec 10) :
    (crowded l).checkSlot k = { check := some { checkOf [] with state := .exported, holder := none } } :=
  read_fullTable _ _ 1024 0 k.toNat (Nat.zero_le _) (by have := k.isLt; omega)

theorem witness_open_till : clerk.till.toNat = 1 ∧ OpenTill (shop (checkOf [])) 1 0 ∧
    ((shop (checkOf [])).stand 0).state = .opened ∧ ((shop (checkOf [])).till 1).held.length < 8 := by unfold OpenTill; decide
theorem witness_open_lowest_slot : (∀ j : BitVec 10, j < 1 → ((shop (checkOf [])).checkSlot j).check ≠ none) ∧
    ((shop (checkOf [])).checkSlot 1).check = none := by
  refine ⟨?_, by decide⟩
  intro j h
  have : j = 0 := by
    apply BitVec.eq_of_toNat_eq
    have h1 : j.toNat < 1 := h
    show j.toNat = 0
    omega
  subst this
  decide
theorem witness_open_reclaims : (∀ k, ((crowded [h0]).checkSlot k).check ≠ none) ∧
    (crowded [h0]).cks.exportedList = h0 :: [] ∧
    (crowded [h0]).check h0 = some { checkOf [] with state := .exported, holder := none } := by
  refine ⟨fun k => by rw [crowded_slot]; exact Option.some_ne_none _, rfl, ?_⟩
  unfold State.check
  rw [crowded_slot]
  rfl
theorem witness_open_no_slot : (∀ k, ((crowded []).checkSlot k).check ≠ none) ∧ (crowded []).cks.exportedList = [] :=
  ⟨fun k => by rw [crowded_slot]; exact Option.some_ne_none _, rfl⟩

/-- The shop's check with a holder. -/
def heldBy (n : Option Nat) : Check := { checkOf [] with holder := n }

/-- Till 1 of the shop holds as many checks. -/
def holding (n : Nat) (c : Check) : State :=
  { shop c with cks := { (shop c).cks with
      tills := [(1, { stand := some 0, isOpen := true, held := List.replicate n { slot := 9, gen := 1 } })] } }

theorem witness_held : HeldBy (shop (checkOf [])) clerk 0 h0 (checkOf []) := by unfold HeldBy; decide
theorem witness_pick_up_own : OpenTill (shop (heldBy (some 1))) 1 (heldBy (some 1)).stand ∧ handleOf 0 = some h0 ∧
    (shop (heldBy (some 1))).check h0 = some (heldBy (some 1)) ∧ (heldBy (some 1)).ended = false ∧
    (heldBy (some 1)).holder = some 1 := by unfold OpenTill; decide
theorem witness_pick_up_parked : OpenTill (holding 7 (heldBy none)) 1 0 ∧
    (holding 7 (heldBy none)).check h0 = some (heldBy none) ∧ (heldBy none).holder = none ∧
    ((holding 7 (heldBy none)).till 1).held.length < 8 := by unfold OpenTill; decide
theorem witness_pick_up_full : OpenTill (holding 8 (heldBy none)) 1 0 ∧
    (holding 8 (heldBy none)).check h0 = some (heldBy none) ∧ 8 ≤ ((holding 8 (heldBy none)).till 1).held.length := by
  unfold OpenTill; decide
theorem witness_pick_up_held : OpenTill (holding 7 (heldBy (some 2))) 1 0 ∧ boss.authority = .supervisor ∧
    (holding 7 (heldBy (some 2))).check h0 = some (heldBy (some 2)) ∧ 2 ≠ 1 := by unfold OpenTill; decide

theorem witness_force_pick_up_full : OpenTill (holding 8 (heldBy (some 2))) 1 0 ∧ boss.authority = .supervisor ∧
    (holding 8 (heldBy (some 2))).check h0 = some (heldBy (some 2)) ∧ (heldBy (some 2)).holder ≠ some 1 ∧
    8 ≤ ((holding 8 (heldBy (some 2))).till 1).held.length ∧ (holding 8 (heldBy none)).check h0 = some (heldBy none) := by
  unfold OpenTill; decide
theorem test_force_pick_up_refused : (after (.forcePickUp boss 0) (holding 8 (heldBy (some 2)))).exu.answer = some (.refused .tillFull none) ∧
    (after (.forcePickUp clerk 0) (holding 7 (heldBy none))).exu.answer = some (.refused .authority none) := by decide

theorem witness_only_holder_park : HolderRequest clerk 0 (.park clerk 0) ∧ HolderRequest clerk 0 (.settle clerk 0) :=
  ⟨.inl rfl, .inr (.inl rfl)⟩
theorem witness_only_holder_line : HolderRequest clerk 0 (.voidLine clerk 0 39) ∧ HolderRequest boss 0 (.compLine boss 0 0) ∧
    HolderRequest clerk 0 (.setShare clerk 0 39 511) :=
  ⟨.inr (.inr (.inl ⟨39, by decide, .inl rfl⟩)), .inr (.inr (.inl ⟨0, by decide, .inr (.inl ⟨rfl, rfl⟩)⟩)),
    .inr (.inr (.inl ⟨39, by decide, .inr (.inr ⟨511, by decide, rfl⟩)⟩))⟩
theorem witness_only_holder_void_tender : HolderRequest clerk 0 (.voidTender clerk 0 15) :=
  .inr (.inr (.inr (.inl ⟨15, by decide, rfl⟩)))
theorem witness_only_holder_add_line : HolderRequest clerk 0 (.addLine clerk 0 2047 99 0xE100001 1 9999 0 0 0) :=
  .inr (.inr (.inr (.inr (.inl ⟨2047, 99, 0xE100001, 1, 9999, 0, 0, 0, by decide, by decide, by decide, by decide, by decide, rfl⟩))))
theorem witness_only_holder_split : HolderRequest clerk 0 (.setSplit clerk 0 1 15 0 0 0 0 0 0 0) := by
  refine .inr (.inr (.inr (.inr (.inr (.inl ⟨1, 15, 0, 0, 0, 0, 0, 0, 0, by decide, by decide, ?_, rfl⟩)))))
  intro x hx
  have hx : x ∈ [(15 : Word)] := hx
  rw [List.mem_singleton.1 hx]; decide
theorem witness_only_holder_tender : HolderRequest clerk 0 (.tender clerk 0 7 2 99999999 0) :=
  .inr (.inr (.inr (.inr (.inr (.inr ⟨7, 2, 99999999, 0, by decide, by decide, by decide, by decide, rfl⟩)))))
theorem witness_only_holder_fire : ∃ g : Word, 1 ≤ g.toNat ∧ g.toNat ≤ 3 ∧ Instr.fire clerk 0 3 = .fire clerk 0 g :=
  ⟨3, by decide, by decide, rfl⟩
theorem test_comp_line_needs_the_holder : (after (.compLine boss 0 0) (shop { checkOf [lineOf 3 1 .held] with holder := some 2 })).exu.answer =
    some (.refused .held (some 2)) := by decide
theorem test_fire_parked : (after (.fire clerk 0 1) (shop { checkOf [] with holder := none })).exu.answer =
    some (.refused .notHeld none) := by decide
theorem witness_only_holder_range : handleOf 0x400 = none ∧ handleOf 0x400000 = none := by decide
theorem witness_only_holder_stale : handleOf 0x10000 = some { slot := 0, gen := 1 } ∧
    (shop (checkOf [])).check { slot := 0, gen := 1 } = none := by decide
theorem witness_only_holder_ended :
    (let c : Check := { checkOf [] with state := .closed, holder := none }
     (shop c).check h0 = some c ∧ c.state = .closed) := by decide
theorem witness_only_holder_exported :
    (let c : Check := { checkOf [] with state := .exported, holder := none }
     (shop c).check h0 = some c ∧ c.state = .exported) := by decide
theorem witness_only_holder_parked : (shop (heldBy none)).check h0 = some (heldBy none) ∧ (heldBy none).ended = false ∧
    (heldBy none).holder = none := by decide
theorem witness_only_holder_other : (shop (heldBy (some 2))).check h0 = some (heldBy (some 2)) ∧
    (heldBy (some 2)).holder = some 2 ∧ 2 ≠ clerk.till.toNat := by decide

/-- The operands of an ADD_LINE of item `x`, quantity `q`. -/
def EntersLine (s : State) (c : Check) (x q : Word) (i : ItemId) : Prop :=
  HeldBy s clerk 0 h0 c ∧ x.toNat = i.val ∧ 1 ≤ q.toNat ∧ q.toNat ≤ 99 ∧ fireModeOf 0xE100001 = some (.delayed 3600) ∧
    deltasOf 4 [9999, BitVec.ofInt 32 (-9999), 0, 1] = some [9999, -9999, 0, 1]

def payingCheck : Check := { checkOf [] with state := .paying }
def longCheck : Check := { checkOf [] with lines := List.replicate 40 (lineOf 3 1 .held) }

theorem witness_add_line_frozen : EntersLine (stocked (slotOf0 .paced []) payingCheck) payingCheck 3 1 3 ∧
    payingCheck.state = .paying := by unfold EntersLine HeldBy; decide
theorem witness_add_line_no_item : EntersLine (stocked (slotOf0 .paced []) (checkOf [])) (checkOf []) 2 1 2 ∧
    ((stocked (slotOf0 .paced []) (checkOf [])).item 2).isDefined = false := by unfold EntersLine HeldBy; decide
theorem witness_add_line_cut_off :
    (let s : State := { shop (checkOf []) with
      cks := { (shop (checkOf [])).cks with stands := [(0, { stand0 with cutOff := true })] }
      isu := { items := [(3, { isDefined := true, restricted := true })] } }
     EntersLine s (checkOf []) 3 99 3 ∧ (s.item 3).isDefined = true ∧ (s.item 3).restricted = true ∧
       (s.stand 0).cutOff = true) := by unfold EntersLine HeldBy; decide
theorem witness_add_line_full : EntersLine (stocked (slotOf0 .paced []) longCheck) longCheck 3 1 3 ∧
    ((stocked (slotOf0 .paced []) longCheck).item 3).restricted = false ∧ 40 ≤ longCheck.lines.length := by
  unfold EntersLine HeldBy; decide +kernel
theorem witness_add_line_out_of_stock : EntersLine (stocked (slotOf0 .paced []) (checkOf [])) (checkOf []) 4 7 4 ∧
    (checkOf []).lines.length < 40 ∧ (stocked (slotOf0 .paced []) (checkOf [])).linesInUse < 8192 ∧
    ((stocked (slotOf0 .paced []) (checkOf [])).item 4).tracked = true ∧ 10 - 4 < (7 : Word).toNat := by
  unfold EntersLine HeldBy; decide
theorem witness_add_line_reserves : EntersLine (stocked (slotOf0 .paced []) (checkOf [])) (checkOf []) 4 6 4 ∧
    (6 : Word).toNat ≤ ((stocked (slotOf0 .paced []) (checkOf [])).item 4).onHand -
      ((stocked (slotOf0 .paced []) (checkOf [])).item 4).reserved := by unfold EntersLine HeldBy; decide
theorem test_add_line_low_stock : (after (.addLine clerk 0 4 4 0 0 0 0 0 0) (stocked (slotOf0 .paced []) (checkOf []))).handovers =
    [.noticeRaise { kind := .stockLow, subject := 4, values := [2, 10, 8] }, .firing h0 [0] .entry] := by decide

/-- An exported check with so many lines. -/
def spent (n : Nat) : Check := { checkOf (List.replicate n (lineOf 3 1 .served)) with state := .exported, holder := none }
def eight : Check := checkOf (List.replicate 8 (lineOf 3 1 .held))

/-- The shop with 8,192 line records in use: 8 of its open check in slot 0, 16 of slot 1, none of slot 2, 8 of every other slot. -/
def pooled (exported : List Handle) : State :=
  { stocked (slotOf0 .paced []) eight with
    cks := { (shop eight).cks with
      slots := (0, { check := some eight }) :: (1, { check := some (spent 16) }) :: (2, { check := some (spent 0) }) ::
        (List.range' 3 1021).map (fun i => (i, { check := some (spent 8) }))
      exportedList := exported } }

theorem pooled_slot (l : List Handle) (k : BitVec 10) : (pooled l).checkSlot k =
    if k.toNat = 0 then { check := some eight } else if k.toNat = 1 then { check := some (spent 16) }
    else if k.toNat = 2 then { check := some (spent 0) } else { check := some (spent 8) } := by
  unfold State.checkSlot
  simp only [pooled, Table.read]
  split
  · rfl
  · split
    · rfl
    · split
      · rfl
      · exact read_fullTable _ _ 1021 3 k.toNat (by omega) (by have := k.isLt; omega)

theorem pooled_check (l : List Handle) {h : Handle} {c : Check} (hc : (pooled l).check h = some c) :
    (h = h0 ∧ c = eight) ∨ (c.state = .exported ∧ c.holder = none) := by
  unfold State.check at hc
  rw [pooled_slot] at hc
  split at hc
  · by_cases hg : (0 : BitVec 6) = h.gen
    · rename_i hk
      simp only [if_pos hg] at hc
      refine .inl ⟨?_, (Option.some.inj hc).symm⟩
      have hk2 : h.slot = 0 := BitVec.eq_of_toNat_eq hk
      cases h
      simp only [] at hk2 hg
      rw [hk2, ← hg]; rfl
    · simp only [if_neg hg] at hc
      cases hc
  · dsimp only at hc
    split at hc
    · dsimp only at hc
      split at hc
      · cases Option.some.inj hc; exact .inr ⟨rfl, rfl⟩
      · cases hc
    · split at hc
      · dsimp only at hc
        split at hc
        · cases Option.some.inj hc; exact .inr ⟨rfl, rfl⟩
        · cases hc
      · dsimp only at hc
        split at hc
        · cases Option.some.inj hc; exact .inr ⟨rfl, rfl⟩
        · cases hc

theorem witness_add_line_pool_full : EntersLine (pooled [{ slot := 2, gen := 0 }]) eight 3 1 3 ∧ eight.lines.length < 40 ∧
    8192 ≤ (pooled [{ slot := 2, gen := 0 }]).linesInUse ∧ (pooled [{ slot := 2, gen := 0 }]).check { slot := 2, gen := 0 } = some (spent 0) ∧
    (spent 0).lines = [] := by
  refine ⟨?_, by decide, by decide +kernel, by decide, by decide⟩
  unfold EntersLine HeldBy; decide

theorem witness_void_line_staff : (let c := checkOf [lineOf 3 2 .fired]
    HeldBy (shop c) clerk 0 h0 c ∧ c.state = .opened ∧ c.lines[(0 : Word).toNat]? = some (lineOf 3 2 .fired) ∧
      (lineOf 3 2 .fired).void = false ∧ clerk.authority = .staff) := by unfold HeldBy; decide
theorem witness_void_line_last : HeldBy (shop longCheck) clerk 0 h0 longCheck ∧ longCheck.state = .opened ∧ (39 : Word).toNat ≤ 39 ∧
    longCheck.lines[(39 : Word).toNat]? = some (lineOf 3 1 .held) ∧ (lineOf 3 1 .held).void = false := by
  unfold HeldBy; decide +kernel
theorem witness_comp_line : (let c := checkOf [lineOf 3 2 .fired]
    HeldBy (shop c) boss 0 h0 c ∧ boss.authority = .supervisor ∧ (lineOf 3 2 .fired).comp = false) := by unfold HeldBy; decide
theorem witness_comp_line_again : (let c := checkOf [{ lineOf 3 2 .held with comp := true }]
    HeldBy (shop c) boss 0 h0 c ∧ c.lines[(0 : Word).toNat]? = some { lineOf 3 2 .held with comp := true }) := by
  unfold HeldBy; decide

theorem witness_line_frozen : HeldBy (shop payingCheck) clerk 0 h0 payingCheck ∧ HeldBy (shop payingCheck) boss 0 h0 payingCheck ∧
    payingCheck.state = .paying ∧ (39 : Word).toNat ≤ 39 := by unfold HeldBy; decide
theorem test_paying_check_is_frozen :
    (let s := shop { checkOf [lineOf 3 2 .held] with state := .paying }
     [Instr.voidLine clerk 0 0, .compLine boss 0 0, .setShare clerk 0 0 0x100, .setSplit clerk 0 1 1 0 0 0 0 0 0 0].map
       (fun c => (after c s).exu.answer)) = List.replicate 4 (some (.refused .splitFrozen none)) := by decide

/-- A gate test of CKS waits for ISU, and slot 0's batch timer runs behind a gate that is closed. -/
def testing (c : Check) : State :=
  { stocked { slotOf0 .paced [] with batchTimer := .running 500 } c with handovers := [.gateTest] }

theorem witness_asks_isu : (∀ c ∈ (testing (checkOf [])).waitingFor .cks .isu, c = .gateTest ∨ c = .isuDayClose) ∧
    (ranAll ((testing (checkOf [])).waitingFor .cks .isu) (testing (checkOf []))).isSome = true := by decide +kernel
theorem test_gate_test_is_before_the_reserve :
    (let t := after (.addLine clerk 0 4 1 0 0 0 0 0 0) (testing (checkOf []))
     ((t.batch 0).batchTimer, t.handovers) = (.held 500, [.firing h0 [0] .entry])) := by decide +kernel

/-- A check of 8 payers with a line. -/
def shared : Check := { checkOf [lineOf 3 2 .held] with weights := List.replicate 8 1 }

theorem witness_set_share_set : HeldBy (shop shared) clerk 0 h0 shared ∧ shared.state = .opened ∧
    shared.lines[(0 : Word).toNat]? = some (lineOf 3 2 .held) ∧ 1 ≤ (255 : Word).toNat ∧ (255 : Word).toNat ≤ 255 ∧
    (∀ p : Nat, (255 : Word).getLsbD p = true → p < shared.weights.length) := by
  refine ⟨by unfold HeldBy; decide, by decide, by decide, by decide, by decide, ?_⟩
  intro p h
  refine Nat.lt_of_not_le (fun hp8 => ?_)
  have hp8 : 8 ≤ p := hp8
  have h255 : (255 : Word).getLsbD p = Nat.testBit 255 p := rfl
  rw [h255, Nat.testBit_lt_two_pow (Nat.lt_of_lt_of_le (by decide : 255 < 2 ^ 8) (Nat.pow_le_pow_right (by decide) hp8))] at h
  cases h
theorem witness_set_share_bad_mask : HeldBy (shop (checkOf [lineOf 3 2 .held])) clerk 0 h0 (checkOf [lineOf 3 2 .held]) ∧
    (2 : Word).toNat ≤ 255 ∧ (2 : Word).getLsbD 1 = true ∧ (checkOf [lineOf 3 2 .held]).weights.length ≤ 1 := by unfold HeldBy; decide
theorem witness_set_split : HeldBy (shop shared) clerk 0 h0 shared ∧ 1 ≤ (8 : Word).toNat ∧ (8 : Word).toNat ≤ 8 ∧
    (∀ x ∈ ([1, 15, 1, 15, 1, 15, 1, 15] : List Word).take (8 : Word).toNat, 1 ≤ x.toNat ∧ x.toNat ≤ 15) ∧
    (∀ l ∈ shared.lines, l.share = .all) := by
  refine ⟨by unfold HeldBy; decide, by decide, by decide, ?_, by decide⟩
  show ∀ x ∈ ([1, 15, 1, 15, 1, 15, 1, 15] : List Word), 1 ≤ x.toNat ∧ x.toNat ≤ 15
  simp
theorem witness_set_split_bad_mask :
    (let c := checkOf [{ lineOf 3 2 .held with share := .payers 2 }]
     HeldBy (shop c) clerk 0 h0 c ∧ (1 : Word).toNat ≤ 1 ∧ (2 : BitVec 8).getLsbD 1 = true) := by unfold HeldBy; decide

theorem buffer_of_shop (c : Check) (o n : Word) (h1 : o.toNat % 4 = 0) (h2 : 4096 ≤ o.toNat) (h3 : o.toNat + n.toNat ≤ 65536) :
    BufferOffset (shop c) o n := by
  have hs : (shop c).exu.size.toNat = 16 := rfl
  refine ⟨h1, h2, by omega, by omega, by omega, ?_⟩
  intro w hw
  cases hw

theorem witness_read_check : handleOf 0 = some h0 ∧ (shop (checkOf [])).check h0 = some (checkOf []) ∧
    (checkOf []).due.rows.length = (checkOf []).weights.length ∧ BufferOffset (shop (checkOf [])) 4096 148 ∧
    64 + 32 * (checkOf []).lines.length + 44 + 40 * (checkOf []).weights.length + 32 * (checkOf []).tenders.length ≤ 148 :=
  ⟨by decide, by decide +kernel, by decide, buffer_of_shop _ _ _ (by decide) (by decide) (by decide), by decide⟩
theorem witness_read_no_room : BufferOffset (shop (checkOf [])) 65388 147 ∧ (147 : Word).toNat < 148 ∧
    BufferOffset (shop (checkOf [])) 65520 15 ∧ (15 : Word).toNat < 16 :=
  ⟨buffer_of_shop _ _ _ (by decide) (by decide) (by decide), by decide, buffer_of_shop _ _ _ (by decide) (by decide) (by decide),
    by decide⟩
theorem witness_read_station : (23 : Word).toNat = (23 : StationId).val ∧ BufferOffset (shop (checkOf [])) 65520 16 ∧
    16 ≤ (16 : Word).toNat := ⟨by decide, buffer_of_shop _ _ _ (by decide) (by decide) (by decide), by decide⟩
theorem witness_read_outside : ¬ BufferOffset (shop (checkOf [])) 65520 20 ∧ (23 : Word).toNat < 24 :=
  ⟨fun h => absurd h.2.2.2.2.1 (by decide), by decide⟩
theorem witness_quote : (checkOf []).due.complete = true ∧ (let c := checkOf [{ lineOf 3 1 .held with share := .unassigned }]
    (shop c).check h0 = some c ∧ c.due.complete = false) := by decide
theorem witness_read_item : (2047 : Word).toNat = (2047 : ItemId).val ∧ (State.reset.item 2047).slot = none ∧
    (5 : Word).toNat = (5 : ItemId).val ∧ ((stocked (slotOf0 .paced [1]) (checkOf [])).item 5).slot = some 0 := by decide
theorem witness_read_item_timers : (let b : Batch := { slotOf0 .onDemand [] with leadTimer := .held 2000 }
    ((stocked b (checkOf [])).item 5).slot = some 0 ∧ ((stocked b (checkOf [])).batch 0).leadTimer ≠ .idle) ∧
    ((stocked (slotOf0 .paced []) (checkOf [])).batch 0).leadTimer = .idle := by decide
theorem test_read_item_timer_word :
    (match (after (.readItem clerk 5) (stocked { slotOf0 .onDemand [2] with leadTimer := .held 2000 } (checkOf []))).exu.answer with
     | some (.done ws) => (ws.getD 7 0, ws.getD 10 0)
     | _ => (0, 0)) = (0x20002, 2000) := by decide
theorem test_absent_close_time : ((checkHeader h0 (checkOf [])).drop 52).take 4 = [0xFF, 0xFF, 0xFF, 0xFF] := by decide +kernel
theorem witness_read_demand : (15 : Word).toNat = (15 : StandId).val ∧ (31 : Word).toNat = (31 : SlotId).val := by decide

/-- Which check a one-check table holds. -/
theorem one_check {t : State} {c c1 : Check} {h : Handle} (hs : t.cks.slots = [(0, { check := some c })]) (hc : t.check h = some c1) :
    h = h0 ∧ c1 = c := by
  by_cases hk : h.slot.toNat = 0
  · have hr : t.checkSlot h.slot = { check := some c } := by
      unfold State.checkSlot
      rw [hs]
      simp [Table.read, hk]
    simp only [State.check, hr] at hc
    by_cases hg : (0 : BitVec 6) = h.gen
    · simp only [if_pos hg] at hc
      refine ⟨?_, (Option.some.inj hc).symm⟩
      have hk2 : h.slot = 0 := BitVec.eq_of_toNat_eq hk
      cases h
      simp only [] at hk2 hg
      rw [hk2, ← hg]; rfl
    · simp only [if_neg hg] at hc
      cases hc
  · have hr : t.checkSlot h.slot = {} := by
      unfold State.checkSlot
      rw [hs]
      simp [Table.read, hk]
    simp [State.check, hr] at hc

/-- The tills of the shop. -/
theorem shop_till_held {c : Check} (n : Nat) {h : Handle} (hh : h ∈ ((shop c).till n).held) :
    h = h0 ∧ c.holder = some n := by
  unfold State.till at hh
  simp only [shop, Table.read] at hh
  by_cases h1 : n = 1
  · subst h1
    simp only [if_true] at hh
    split at hh
    · rename_i he; exact ⟨by simpa using hh, he⟩
    · simp at hh
  · by_cases h2 : n = 2
    · subst h2
      simp only [if_neg h1, if_true] at hh
      split at hh
      · rename_i he; exact ⟨by simpa using hh, he⟩
      · simp at hh
    · simp [if_neg h1, if_neg h2] at hh

/-- The shop keeps its holding in order while its check is open and held by till 1, or ended and on its list. -/
theorem shop_holdingOk : HoldingOk (shop (checkOf [])) where
  heldLive := by
    intro n h hh
    obtain ⟨rfl, hn⟩ := shop_till_held n hh
    exact ⟨checkOf [], by decide, hn⟩
  heldListed := by
    intro h c n hc hn
    obtain ⟨rfl, rfl⟩ := one_check rfl hc
    cases hn; decide
  heldOpen := by
    intro h c n hc hn
    obtain ⟨rfl, rfl⟩ := one_check rfl hc
    cases hn; decide
  heldOnce := by
    intro n
    by_cases h1 : n = 1
    · subst h1; decide
    · by_cases h2 : n = 2
      · subst h2; decide
      · simp [State.till, shop, Table.read, h1, h2]
  endedFree := by
    intro h c hc he
    obtain ⟨rfl, rfl⟩ := one_check rfl hc
    cases he
  closedList := by decide
  exportedList := by decide
  lineRecords := by decide
  slotTable := by decide

/-- The shop keeps its holding in order with the line pool full. -/
theorem pooled_holdingOk (l : List Handle) (hl : l.Nodup ∧ ∀ h ∈ l, h = { slot := 1, gen := 0 } ∨ h = { slot := 2, gen := 0 }) :
    HoldingOk (pooled l) where
  heldLive := by
    intro n h hh
    obtain ⟨rfl, hn⟩ := shop_till_held (c := eight) n hh
    refine ⟨eight, ?_, hn⟩
    unfold State.check
    rw [pooled_slot]
    rfl
  heldListed := by
    intro h c n hc hn
    rcases pooled_check l hc with ⟨rfl, rfl⟩ | ⟨_, he⟩
    · cases hn
      show h0 ∈ ((shop eight).till 1).held
      decide
    · rw [he] at hn; cases hn
  heldOpen := by
    intro h c n hc hn
    rcases pooled_check l hc with ⟨rfl, rfl⟩ | ⟨_, he⟩
    · cases hn
      show 1 ≤ 1 ∧ 1 ≤ 96 ∧ ((shop eight).till 1).isOpen = true ∧ ((shop eight).till 1).stand = some eight.stand
      decide
    · rw [he] at hn; cases hn
  heldOnce := by
    intro n
    show ((shop eight).till n).held.Nodup ∧ ((shop eight).till n).held.length ≤ 8
    by_cases h1 : n = 1
    · subst h1; decide
    · by_cases h2 : n = 2
      · subst h2; decide
      · simp [State.till, shop, Table.read, h1, h2]
  endedFree := by
    intro h c hc he
    rcases pooled_check l hc with ⟨rfl, rfl⟩ | ⟨_, hn⟩
    · cases he
    · exact hn
  closedList := ⟨List.nodup_nil, fun _ hh => nomatch hh⟩
  exportedList := by
    refine ⟨hl.1, fun h hh => ?_⟩
    rcases hl.2 h hh with rfl | rfl
    · exact ⟨spent 16, by unfold State.check; rw [pooled_slot]; rfl, rfl⟩
    · exact ⟨spent 0, by unfold State.check; rw [pooled_slot]; rfl, rfl⟩
  lineRecords := by
    show ((pooled []).checks.map (fun e => e.2.lines.length)).sum ≤ 8192
    decide +kernel
  slotTable := by
    show Table.wf {} (pooled []).cks.slots = true ∧ ∀ e ∈ (pooled []).cks.slots, e.1 < 1024
    decide +kernel

theorem witness_add_line_reclaims : HoldingOk (pooled [{ slot := 2, gen := 0 }, { slot := 1, gen := 0 }]) ∧
    (pooled [{ slot := 2, gen := 0 }, { slot := 1, gen := 0 }]).cks.exportedList =
      ([{ slot := 2, gen := 0 }] ++ [{ slot := 1, gen := 0 }]) ++ [] ∧
    (spent 0).lines = [] ∧
    (pooled [{ slot := 2, gen := 0 }, { slot := 1, gen := 0 }]).check { slot := 1, gen := 0 } = some (spent 16) ∧ (spent 16).lines ≠ [] :=
  ⟨pooled_holdingOk _ ⟨by decide, by decide⟩, by decide, by decide, by decide, by decide⟩

theorem endedShop_holdingOk (state : CheckState) (hs : state = .closed ∨ state = .exported) : HoldingOk (endedShop state) where
  heldLive := by
    intro n h hh
    have : h ∈ ((shop (endedCheck state)).till n).held := hh
    cases (shop_till_held n this).2
  heldListed := by
    intro h c n hc hn
    obtain ⟨rfl, rfl⟩ := one_check rfl hc
    cases hn
  heldOpen := by
    intro h c n hc hn
    obtain ⟨rfl, rfl⟩ := one_check rfl hc
    cases hn
  heldOnce := by
    intro n
    by_cases h1 : n = 1
    · subst h1; exact ⟨by simp [State.till, endedShop, shop, endedCheck, Table.read], by simp [State.till, endedShop, shop, endedCheck, Table.read]⟩
    · by_cases h2 : n = 2
      · subst h2; exact ⟨by simp [State.till, endedShop, shop, endedCheck, Table.read], by simp [State.till, endedShop, shop, endedCheck, Table.read]⟩
      · simp [State.till, endedShop, shop, Table.read, h1, h2]
  endedFree := by
    intro h c hc _
    obtain ⟨rfl, rfl⟩ := one_check rfl hc
    rfl
  closedList := by cases hs with | inl h => subst h; decide | inr h => subst h; decide
  exportedList := by cases hs with | inl h => subst h; decide | inr h => subst h; decide
  lineRecords := by cases hs with | inl h => subst h; decide | inr h => subst h; decide
  slotTable := by cases hs with | inl h => subst h; decide | inr h => subst h; decide

/-- One payer's row is in order where the row is. -/
theorem one_row {c : Check} {r : PayerRow} (h : c.due.rows = [r])
    (hr : r.applied + r.remaining = r.due ∧ r.applied = c.liveApplied 0 ∧
      (c.due.complete = true → r.paid = decide (r.remaining = 0))) :
    ∀ (p : Nat) (row : PayerRow), c.due.rows[p]? = some row →
      row.applied + row.remaining = row.due ∧ row.applied = c.liveApplied p ∧
        (c.due.complete = true → row.paid = decide (row.remaining = 0)) := by
  intro p row hp
  rw [h] at hp
  match p, hp with
  | 0, hp => cases Option.some.inj hp; exact hr
  | p + 1, hp => cases hp

theorem endedShop_moneyOk : MoneyOk (endedShop .closed) := by
  intro h c hc
  obtain ⟨rfl, rfl⟩ := one_check rfl hc
  exact {
    rows := one_row (r := { paid := true, taxes := [0, 0, 0, 0] }) (by decide) (by decide)
    rowCount := by decide
    applied := by decide
    openState := by decide
    payingState := by decide
    closedState := by decide
    payers := by decide
    lines := by decide
    tenders := by decide }

theorem witness_export : HoldingOk (endedShop .closed) ∧ MoneyOk (endedShop .closed) ∧
    (endedShop .closed).cks.closedList = ([(h0, endedCheck .closed)].map Prod.fst) ++ [] ∧
    (endedShop .closed).check h0 = some (endedCheck .closed) ∧
    ([(h0, endedCheck .closed)].map (fun e => checkRecordLength e.2)).sum ≤ (148 : Word).toNat :=
  ⟨endedShop_holdingOk _ (.inl rfl), endedShop_moneyOk, by decide, by decide, by decide⟩
theorem witness_export_no_room : (endedShop .closed).cks.closedList = (([] : List (Handle × Check)).map Prod.fst) ++ [h0] ∧
    (endedShop .closed).check h0 = some (endedCheck .closed) ∧ (147 : Word).toNat < 0 + checkRecordLength (endedCheck .closed) := by
  decide
theorem witness_export_buffer : BufferOffset (endedShop .closed) 65388 148 := by
  refine ⟨by decide, by decide, by decide, by decide, by decide, ?_⟩
  intro w hw
  cases hw

/-- The routes that SET_STAND may give, 23 and none among them. -/
theorem witness_set_stand : (15 : Word).toNat = (15 : StandId).val ∧ boss.authority = .supervisor ∧
    routesOf 0xFFFFFF17 0xFFFFFFFF = some (some 23 :: List.replicate 7 none) ∧ (2500 : Word).toNat ≤ 2500 ∧
    (2000 : Word).toNat ≤ 2000 ∧ (25 : Word) = 25 ∧ FirePolicy.onEntry = (State.reset.stand 15).policy := by decide
theorem witness_set_stand_policy : (∀ e ∈ (endedShop .exported).checks, e.2.stand = 0 → e.2.state = .exported) ∧
    FirePolicy.onSettle ≠ ((endedShop .exported).stand 0).policy := by decide
theorem witness_set_stand_staff : clerk.authority = .staff ∧ Instr.cutOff clerk 0 ∈
    [.setStand clerk 0 0 0 0 0 0 0 0 0 0, .setTill clerk 0 0 0, .standState clerk 0 0, .cutOff clerk 0, .closeDay clerk] := by decide
theorem witness_set_till : ((shop (checkOf [])).stand 0).configured = true ∧ 1 ≤ (96 : Word).toNat ∧ (96 : Word).toNat ≤ 96 ∧
    ((shop (checkOf [])).till 96).held = [] := by decide
theorem witness_set_till_busy : ((shop (checkOf [])).till 1).held ≠ [] ∧ ((1 : Word) = 1 ∧ false = false) := by decide
theorem witness_stand_state_open_checks : ∃ e ∈ (shop (checkOf [])).checks, e.2.stand = 0 ∧ (e.2.state = .opened ∨ e.2.state = .paying) := by
  decide
theorem witness_stand_state : ((shop (checkOf [])).stand 0).configured = true ∧ (2 : Word) = 2 ∧
    (∀ e ∈ (endedShop .closed).checks, e.2.stand = 0 → e.2.state ≠ .opened ∧ e.2.state ≠ .paying) := by decide

theorem endedShop_endedListed (state : CheckState) : EndedListed (endedShop state) := by
  intro h c hc
  obtain ⟨rfl, rfl⟩ := one_check rfl hc
  cases state <;> decide

theorem witness_close_day : HoldingOk (endedShop .exported) ∧ office.authority = .supervisor ∧
    (∀ e ∈ (endedShop .exported).checks, e.2.state ≠ .opened ∧ e.2.state ≠ .paying) ∧ (endedShop .exported).cks.closedList = [] ∧
    h0 ∈ (endedShop .exported).cks.exportedList :=
  ⟨endedShop_holdingOk _ (.inr rfl), by decide, by decide, by decide, by decide⟩
theorem witness_close_day_not_exported : HoldingOk (endedShop .closed) ∧
    (∀ e ∈ (endedShop .closed).checks, e.2.state ≠ .opened ∧ e.2.state ≠ .paying) ∧ (endedShop .closed).cks.closedList ≠ [] :=
  ⟨endedShop_holdingOk _ (.inl rfl), by decide, by decide⟩
theorem witness_close_day_open_checks : HoldingOk (shop (checkOf [])) ∧
    ∃ e ∈ (shop (checkOf [])).checks, e.2.state = .opened ∨ e.2.state = .paying := ⟨shop_holdingOk, by decide⟩
theorem test_close_day_leaves_the_time_left :
    (let t := after (.closeDay office) { endedShop .exported with
       exu := { dayClock := 4000 }
       isu := { items := items, batches := [(0, slotOf0 .paced [2])] }
       tkr := { delays := [{ ref := ref0, due := 3500 }] } }
     ((t.batch 0).lots.map Lot.expiry, t.tkr.delays.map Delay.due, t.handovers.head?)) =
      ([1000], [0xFFFFFE0C], some (.slotFreed h0)) := by decide +kernel
theorem test_close_day_clock : (after (.closeDay office) { endedShop .exported with
    exu := { dayClock := 77 } }).exu.dayClock = 0 := by decide

theorem witness_reopen_exported : boss.till.toNat = 1 ∧ OpenTill (endedShop .exported) 1 0 ∧
    (endedShop .exported).check h0 = some (endedCheck .exported) := by unfold OpenTill; decide

/-- A closed check with a tracked line and a live tender. -/
def soldCheck : Check :=
  { endedCheck .closed with
    lines := [{ lineOf 4 2 .fired with stockMark := true }]
    tenders := [{ payer := 0, kind := .card, offered := 200, applied := 200, change := 0, adjustment := 0, forfeit := 0,
                  reference := 0 }] }

theorem items_room (b : Batch) (c : Check) (x : ItemId) (ht : ((stocked b c).item x).tracked = true) : x = 4 := by
  refine Classical.byContradiction (fun h4 => ?_)
  have h4' : x.val ≠ 4 := fun h => h4 (Fin.ext h)
  revert ht
  by_cases h3 : x.val = 3
  · simp [State.item, stocked, items, Table.read, h3]
  · by_cases h5 : x.val = 5
    · simp [State.item, stocked, items, Table.read, h5]
    · simp [State.item, stocked, items, Table.read, h3, h4', h5]

theorem witness_reopen : OpenTill (stocked (slotOf0 .paced []) soldCheck) 1 soldCheck.stand ∧ soldCheck.state = .closed ∧
    ((stocked (slotOf0 .paced []) soldCheck).stand soldCheck.stand).state ≠ .closed ∧
    ((stocked (slotOf0 .paced []) soldCheck).till 1).held.length < 8 ∧
    (∀ x, ((stocked (slotOf0 .paced []) soldCheck).item x).tracked = true →
      ((stocked (slotOf0 .paced []) soldCheck).item x).onHand + soldCheck.stockOf x ≤ 65535) := by
  refine ⟨by unfold OpenTill; decide, by decide, by decide, by decide, ?_⟩
  intro x hx
  rw [items_room _ _ x hx]
  decide

/-! ### Witnesses: tenders and closing -/

/-- What the statements about tenders suppose, of a check that owes `r` with increment `i`. -/
def CanTender (r i : Nat) (a : Word) (row : PayerRow) : Prop :=
  HeldBy (shop (owing r i)) clerk 0 h0 (owing r i) ∧ (owing r i).due.complete = true ∧ (owing r i).due.rows[0]? = some row ∧
    (owing r i).tenders.length < 16 ∧ row.remaining = r ∧ row.remaining ≠ 0 ∧ 1 ≤ a.toNat ∧ a.toNat ≤ 99999999

/-- The row of one payer who owes `r`, without tax or levy. -/
def rowOf (r : Nat) : PayerRow := { net := r, taxes := [0, 0, 0, 0], due := r, remaining := r }

theorem witness_card_over : CanTender 100 5 101 (rowOf 100) ∧ (rowOf 100).remaining < (101 : Word).toNat := by
  unfold CanTender HeldBy; decide
theorem witness_card_full : CanTender 100 5 100 (rowOf 100) ∧ (100 : Word).toNat ≤ (rowOf 100).remaining := by
  unfold CanTender HeldBy; decide
theorem witness_voucher_most : CanTender 1 5 99999999 (rowOf 1) := by unfold CanTender HeldBy; decide
theorem witness_card_many_tenders :
    (let c := { owing 100 5 with tenders := List.replicate 15 { payer := 0, kind := .card, offered := 1, applied := 1, change := 0, adjustment := 0, forfeit := 0, reference := 0, reversed := true } }
     HeldBy (shop c) clerk 0 h0 c ∧ c.tenders.length < 16) := by unfold HeldBy; decide +kernel
theorem witness_cash_rounds_down : CanTender 1902 5 1900 (rowOf 1902) ∧ 2 * ((rowOf 1902).remaining % 5) < 5 ∧
    min 1902 1900 ≤ (1900 : Word).toNat := by unfold CanTender HeldBy; decide
theorem witness_cash_rounds_up : CanTender 1905 10 1905 (rowOf 1905) ∧ 10 ≤ 2 * ((rowOf 1905).remaining % 10) ∧
    min 1905 1910 ≤ (1905 : Word).toNat := by unfold CanTender HeldBy; decide
theorem witness_cash_partial : CanTender 1902 5 1899 (rowOf 1902) ∧ (1899 : Word).toNat < min 1902 1900 := by
  unfold CanTender HeldBy; decide

theorem witness_settle_unassigned : (let c := checkOf [{ lineOf 3 1 .held with share := .unassigned }]
    HeldBy (shop c) clerk 0 h0 c ∧ c.due.complete = false) := by unfold HeldBy; decide
theorem witness_settle_owing : HeldBy (shop (owing 5 5)) clerk 0 h0 (owing 5 5) ∧ (owing 5 5).due.complete = true ∧
    ∃ row ∈ (owing 5 5).due.rows, row.paid = false := by unfold HeldBy; decide
theorem witness_settle_paid : HeldBy (shop (checkOf [])) clerk 0 h0 (checkOf []) ∧ (checkOf []).due.complete = true ∧
    ∀ row ∈ (checkOf []).due.rows, row.paid = true := by unfold HeldBy; decide

/-- A check whose one line has 2 units of item 4 reserved, and nothing to pay. -/
def reservedCheck : Check := checkOf [{ lineOf 4 2 .fired with price := 0, stockMark := true }]

theorem witness_settle_stock : (let s := stocked (slotOf0 .off []) reservedCheck
    HeldBy s clerk 0 h0 reservedCheck ∧ reservedCheck.due.complete = true ∧ (∀ row ∈ reservedCheck.due.rows, row.paid = true) ∧
      reservedCheck.stockOf 4 = 2 ∧ 2 ≤ (s.item 4).reserved ∧ (s.item 4).reserved ≤ (s.item 4).onHand) := by unfold HeldBy; decide
theorem test_commit_and_uncommit_raise_nothing :
    (let t := after (.settle clerk 0) { stocked (slotOf0 .off []) reservedCheck with handovers := [.gateTest] }
     let u := after (.reopen boss 0) t
     ((t.item 4).onHand, t.handovers, (u.item 4).onHand, u.handovers)) = (8, [.checkCloseTold h0], 10, [.checkCloseTold h0]) := by
  decide +kernel

/-- A check with one tender, at index 15, of 60 of the 100 due. -/
def tendered (reversed : Bool) : Check :=
  { owing 100 5 with
    state := .paying
    tenders := List.replicate 15 { payer := 0, kind := .card, offered := 1, applied := 1, change := 0, adjustment := 0, forfeit := 0,
                                   reference := 0, reversed := true } ++
      [{ payer := 0, kind := .card, offered := 60, applied := 60, change := 0, adjustment := 0, forfeit := 0, reference := 0,
         reversed := reversed }] }

theorem witness_void_tender : HeldBy (shop (tendered false)) clerk 0 h0 (tendered false) ∧ (15 : Word).toNat ≤ 15 ∧
    (tendered false).tenders[(15 : Word).toNat]? = some
      { payer := 0, kind := .card, offered := 60, applied := 60, change := 0, adjustment := 0, forfeit := 0, reference := 0 } ∧
    (tendered false).due.rows[0]? = some (rowOf 100) := by unfold HeldBy; decide +kernel
theorem witness_void_tender_again : HeldBy (shop (tendered true)) clerk 0 h0 (tendered true) ∧
    ((tendered true).tenders[(15 : Word).toNat]?.map Tender.reversed) = some true := by unfold HeldBy; decide +kernel

/-- A check with one ON_CALL line of group 3. -/
def onCall (state : CheckState) : Check :=
  { checkOf [{ lineOf 3 1 .held with mode := .onCall 3 }] with
    state := state, holder := if state = .opened then some 1 else none }

theorem witness_fire_open : handleOf 0 = some h0 ∧ (shop (onCall .opened)).check h0 = some (onCall .opened) ∧ (3 : Word).toNat ≤ 3 ∧
    (onCall .opened).ended = false ∧ (onCall .opened).holder = some clerk.till.toNat ∧
    ((shop (onCall .opened)).stand 0).policy = .onEntry := by decide
theorem witness_fire_closed : (shop (onCall .closed)).check h0 = some (onCall .closed) ∧ (onCall .closed).state = .closed ∧
    office.till = 0 ∧ ((shop (onCall .closed)).till clerk.till.toNat).stand = some 0 := by decide
theorem witness_fire_not_settled :
    (let s : State := { shop (onCall .opened) with cks := { (shop (onCall .opened)).cks with stands := [(0, { stand0 with policy := .onSettle })] } }
     s.check h0 = some (onCall .opened) ∧ (s.stand 0).policy = .onSettle) := by decide
theorem witness_fire_wrong_stand : (onCall .closed).state = .closed ∧ ({ clerk with till := 97 } : Requester).till ≠ 0 ∧
    ¬ (97 : BitVec 8).toNat ≤ 96 ∧ ((shop (onCall .closed)).till 96).stand ≠ some (onCall .closed).stand := by decide
theorem witness_fire_exported : (shop (onCall .exported)).check h0 = some (onCall .exported) ∧
    (onCall .exported).state = .exported := by decide

theorem witness_allocation : 0 < ([0, 1, 15] : List Nat).sum ∧ (allocate 100 [0, 1, 15] 2).shares = [0, 6, 94] := by decide
theorem witness_dues_complete : ([1, 1, 1] : List Nat) ≠ [] ∧ (∀ wt ∈ ([1, 1, 1] : List Nat), 1 ≤ wt) ∧
    (∀ l ∈ groupLines, l.void = false → l.share ≠ .unassigned) := by decide
theorem witness_dues_shares : ∀ l ∈ groupLines, l.void = false → ∀ set, l.share = .payers set →
    ∃ p, p < 3 ∧ set.getLsbD p = true := by
  intro l hl _ set hs
  simp only [groupLines, List.mem_cons, List.not_mem_nil, or_false] at hl
  rcases hl with rfl | rfl | rfl
  · cases hs
  · cases hs; exact ⟨0, by decide, by decide⟩
  · cases hs; exact ⟨2, by decide, by decide⟩
theorem witness_dues_unassigned : ∃ l ∈ [{ lineOf 3 1 .held with share := .unassigned }], l.void = false ∧ l.share = .unassigned := by
  decide

/-! ### Witnesses: items, stock and warmers -/

/-- The items and slot 0 of the shop are in order. -/
theorem stocked_stockOk (b : Batch) (c : Check) (hi : b.item = some 5)
    (hl : b.lots.length ≤ 4 ∧ (∀ l ∈ b.lots, 1 ≤ l.count) ∧ b.ready ≤ b.capacity) : StockOk (stocked b c) := by
  have hitem : ∀ x : ItemId, (stocked b c).item x =
      if x.val = 3 then { isDefined := true, price := 500 }
      else if x.val = 4 then
        { isDefined := true, price := 500, prepRoute := 1, tracked := true, onHand := 10, reserved := 4, lowMark := 3 }
      else if x.val = 5 then { isDefined := true, price := 500, slot := some 0 } else {} := fun x => rfl
  have hbatch : ∀ t : SlotId, (stocked b c).batch t = if t.val = 0 then b else {} := fun t => rfl
  refine { counts := ?_, pairing := ?_, untracked := ?_, lots := ?_ }
  · intro x
    rw [hitem]
    split
    · decide
    · split
      · decide
      · split <;> decide
  · intro x t
    rw [hitem, hbatch]
    by_cases ht : t.val = 0
    · have ht0 : t = 0 := Fin.ext ht
      subst ht0
      rw [if_pos ht, hi]
      by_cases h5 : x.val = 5
      · have h50 : x = 5 := Fin.ext h5
        subst h50
        exact ⟨fun _ => rfl, fun _ => rfl⟩
      · have hx : (some 5 : Option ItemId) ≠ some x := fun h => h5 (by cases h; rfl)
        split
        · exact ⟨fun h => (nomatch h), fun h => (hx h).elim⟩
        · split
          · exact ⟨fun h => (nomatch h), fun h => (hx h).elim⟩
          · exact ⟨fun h => (nomatch h), fun h => (hx h).elim⟩
    · rw [if_neg ht]
      refine ⟨fun h => ?_, fun h => (nomatch h)⟩
      split at h
      · cases h
      · split at h
        · cases h
        · split at h
          · cases h; exact (ht rfl).elim
          · cases h
  · intro x
    rw [hitem]
    split
    · decide
    · split
      · decide
      · split <;> decide
  · intro t
    rw [hbatch]
    split
    · exact hl
    · decide

theorem witness_set_item_keeps : StockOk (stocked (slotOf0 .off []) (checkOf [])) ∧ boss.authority = .supervisor ∧
    (99999 : Word).toNat ≤ 99999 ∧ (65535 : Word).toNat ≤ 65535 ∧ ((7 : Word).toNat = (7 : Fin 8).val) ∧
    ((stocked (slotOf0 .off []) (checkOf [])).item 3).reserved = 0 :=
  ⟨stocked_stockOk _ _ rfl (by decide), by decide, by decide, by decide, by decide, by decide⟩
theorem witness_set_item_pairs : (some 31 : Option SlotId) ≠ ((stocked (slotOf0 .off []) (checkOf [])).item 5).slot ∧
    (31 : Word).toNat = (31 : SlotId).val ∧
    (∀ b, ((stocked (slotOf0 .off []) (checkOf [])).item 5).slot = some b ∨ (some 31 : Option SlotId) = some b →
      ((stocked (slotOf0 .off []) (checkOf [])).batch b).lots = [] ∧
      ((stocked (slotOf0 .off []) (checkOf [])).batch b).outstanding = none ∧
      (((stocked (slotOf0 .off []) (checkOf [])).batch b).item = none ∨ ((stocked (slotOf0 .off []) (checkOf [])).batch b).mode = .off)) := by
  refine ⟨by decide, by decide, ?_⟩
  rintro b (h | h)
  · cases h; decide
  · cases h; decide
theorem witness_set_item_busy_slot : StockOk (stocked (slotOf0 .paced [1]) (checkOf [])) ∧
    ((stocked (slotOf0 .paced [1]) (checkOf [])).item 5).slot = some 0 ∧
    ((stocked (slotOf0 .paced [1]) (checkOf [])).batch 0).lots ≠ [] := ⟨stocked_stockOk _ _ rfl (by decide), by decide, by decide⟩
theorem witness_set_item_busy_stock : 0 < ((stocked (slotOf0 .off []) (checkOf [])).item 4).reserved ∧
    ((stocked (slotOf0 .off []) (checkOf [])).item 4).tracked = true := by decide
theorem witness_set_item_range : true = true ∧ (some 0 : Option SlotId).isSome = true := by decide

/-- The operands of a SET_BATCH at the ends of their ranges. -/
theorem witness_set_batch_ranges : 60 ≤ (60 : Word).toNat ∧ (3600 : Word).toNat ≤ 3600 ∧ 1 ≤ (99 : Word).toNat ∧
    (99 : Word).toNat ≤ 99 ∧ 1 ≤ (999 : Word).toNat ∧ (999 : Word).toNat ≤ 999 ∧ (600 : Word).toNat ≤ 600 ∧ (600 : Word).toNat ≠ 0 := by
  decide
theorem witness_set_batch : StockOk (stocked (slotOf0 .onDemand [2]) (checkOf [])) ∧
    (5 : Word).toNat = (5 : ItemId).val ∧ ((stocked (slotOf0 .onDemand [2]) (checkOf [])).item 5).isDefined = true ∧
    ((stocked (slotOf0 .onDemand [2]) (checkOf [])).item 5).tracked = false ∧
    (1 : Word) = BitVec.ofNat 32 BatchMode.paced.code ∧ ((stocked (slotOf0 .onDemand [2]) (checkOf [])).stand 0).configured = true ∧
    some 5 = ((stocked (slotOf0 .onDemand [2]) (checkOf [])).batch 0).item :=
  ⟨stocked_stockOk _ _ rfl (by decide), by decide, by decide, by decide, by decide, by decide, by decide⟩
theorem witness_set_batch_busy : (8 : Word).toNat < (([9] : List Nat).map (fun n => n)).sum ∧
    StockOk (stocked (slotOf0 .paced [9]) (checkOf [])) := ⟨by decide, stocked_stockOk _ _ rfl (by decide)⟩

theorem witness_receive_stock : StockOk (stocked (slotOf0 .off []) (checkOf [])) ∧ (4 : Word).toNat = (4 : ItemId).val ∧
    (65535 : Word).toNat ≤ 65535 ∧ ((stocked (slotOf0 .off []) (checkOf [])).item 4).isDefined = true ∧
    ((stocked (slotOf0 .off []) (checkOf [])).item 4).tracked = true :=
  ⟨stocked_stockOk _ _ rfl (by decide), by decide, by decide, by decide, by decide⟩
theorem witness_receive_refused : ((stocked (slotOf0 .off []) (checkOf [])).item 2).isDefined = false ∧
    ((stocked (slotOf0 .off []) (checkOf [])).item 3).isDefined = true ∧
    ((stocked (slotOf0 .off []) (checkOf [])).item 3).tracked = false ∧ 1 ≤ (1 : Word).toNat := by decide
theorem test_count_below_reserved : (after (.countStock office 4 1) (stocked (slotOf0 .off []) (checkOf []))).exu.answer =
    some (.done [4, 0, 3]) := by decide

theorem witness_stock_asks : (let i := (stocked (slotOf0 .off []) (checkOf [])).item 4
    i.onHand - i.reserved < 7 ∧ 6 ≤ i.onHand - i.reserved ∧ 4 ≤ i.reserved ∧ i.reserved ≤ i.onHand ∧ i.tracked = true ∧
      i.onHand + 65525 ≤ 65535 ∧ 65535 < i.onHand + 65526) := by decide
theorem witness_uncommit_line : (let c := checkOf [lineOf 4 2 .held]
    (stocked (slotOf0 .off []) c).check h0 = some c ∧ c.lines[0]? = some (lineOf 4 2 .held)) := by decide

theorem witness_draw : (let s := stocked (slotOf0 .paced [2, 3]) (checkOf [])
    (s.batch 0).item = some 5 ∧ (5 : Nat) = ((s.batch 0).lots.map Lot.count).sum ∧ 5 < 6 ∧ 5 ≤ 5 ∧ (s.batch 0).mode ≠ .onDemand) := by
  decide
theorem witness_bump_merges : (let s := stocked (slotOf0 .paced [1, 1, 1, 1]) (checkOf [])
    (∃ older newest, (s.batch 0).lots = older ++ [newest] ∧ 3 ≤ older.length) ∧ min 7 ((s.batch 0).capacity - 4) = 5) :=
  ⟨⟨[{ count := 1, expiry := 5000 }, { count := 1, expiry := 5000 }, { count := 1, expiry := 5000 }], { count := 1, expiry := 5000 },
    by decide, by decide⟩, by decide⟩
theorem witness_lot_expires : (let s := stocked (slotOf0 .paced [2, 3]) (checkOf [])
    (s.batch 0).lots = [] ++ { count := 2, expiry := 5000 } :: [{ count := 3, expiry := 5000 }] ∧
    ∀ m ∈ ([{ count := 3, expiry := 5000 }] : List Lot), ((5000 : Word) - s.exu.dayClock).toInt ≤ (m.expiry - s.exu.dayClock).toInt) := by
  decide

theorem witness_lead_timer : (let s := stocked (slotOf0 .onDemand [3]) (checkOf [])
    (s.batch 0).mode = .onDemand ∧ (s.batch 0).leadTimer = .idle ∧ (s.batch 0).leadDelay ≠ 0 ∧ 1 ≤ 3 ∧ (s.batch 0).lowMark ≤ 3 ∧
      3 - 1 < (s.batch 0).lowMark ∧ (s.batch 0).outstanding = none) := by decide
theorem witness_lead_cancel : (let s := stocked (slotOf0 .onDemand [2]) (checkOf [])
    2 < (s.batch 0).lowMark ∧ (s.batch 0).leadTimer = .idle) ∧ (slotOf0 .paced [2]).mode ≠ .onDemand := by decide
theorem witness_lead_bump : (let s := stocked { slotOf0 .onDemand [] with outstanding := some tag0 } (checkOf [])
    (s.batch 0).item = some 5 ∧ (s.batch 0).mode = .onDemand ∧ 2 = min 2 ((s.batch 0).capacity - 0) ∧ 0 + 2 < (s.batch 0).lowMark) := by
  decide
theorem witness_lead_expiry : (let s := stocked (slotOf0 .onDemand [3]) (checkOf [])
    (s.batch 0).lots = [] ++ { count := 3, expiry := 5000 } :: [] ∧ (s.batch 0).lowMark ≤ 3 ∧ 3 - 3 < (s.batch 0).lowMark) := by decide

theorem witness_batch_behind : ({ slotOf0 .paced [] with outstanding := some tag0 } : Batch).outstanding = some tag0 := rfl
theorem witness_batch_skipped : (slotOf0 .paced [9]).outstanding = none ∧
    min (max (slotOf0 .paced [9]).baseSize 0) ((slotOf0 .paced [9]).capacity - 9) = 0 := by decide
theorem witness_batch_timers : ({ slotOf0 .paced [] with batchTimer := .running 60000 } : Batch).batchTimer = .running 60000 ∧
    ({ slotOf0 .onDemand [] with leadTimer := .running 2000 } : Batch).leadTimer = .running 2000 := ⟨rfl, rfl⟩
theorem witness_restart_batch : (31 : Word).toNat = (31 : SlotId).val ∧ (State.reset.batch 31).mode = .off ∧
    (slotOf0 .paced []).mode = .paced ∧ (slotOf0 .onDemand []).mode = .onDemand ∧ (1 : Word) = 1 := by decide
theorem witness_batch_ask : (let s := stocked (slotOf0 .paced []) (checkOf [])
    (s.batch 0).outstanding = none ∧ (s.batch 0).item = some 5 ∧
    (s.stand (s.batch 0).home).routes.getD (s.item 5).prepRoute.val none = some 0 ∧ s.ticketAt 0 = none) := by decide
theorem witness_batch_ask_no_route : (let s : State := { stocked (slotOf0 .paced []) (checkOf []) with cks := {} }
    (s.batch 0).item = some 5 ∧ (s.stand (s.batch 0).home).routes.getD (s.item 5).prepRoute.val none = none) := by decide

/-- Every ticket record holds a ticket. -/
def noRecord (c : Check) : State :=
  { stocked (slotOf0 .paced []) c with tkr := { tickets := fullTable 1536 { ticket := some (orderTicket .waiting none) } } }

theorem noRecord_ticket (c : Check) (k : Nat) (h : k < 1536) : (noRecord c).ticketAt k ≠ none := by
  have hr : (noRecord c).ticketRec k = { ticket := some (orderTicket .waiting none) } :=
    read_fullTable _ _ 1536 0 k (Nat.zero_le _) (by omega)
  unfold State.ticketAt
  rw [hr]
  exact Option.some_ne_none _

theorem witness_batch_ask_no_record :
    ((noRecord (checkOf [])).stand ((noRecord (checkOf [])).batch 0).home).routes.getD ((noRecord (checkOf [])).item 5).prepRoute.val none ≠ none ∧
      (∀ k, k < 1536 → (noRecord (checkOf [])).ticketAt k ≠ none) :=
  ⟨by decide, fun k h => noRecord_ticket _ k h⟩

/-- Slot 0's gate is open: its stand is open and its station LIVE. -/
def gated (link : LinkState) (b : Batch) : State := { stocked b (checkOf []) with slc := { links := [(0, linkOf link)] } }

theorem witness_gate_open : GateIsOpen (gated .live (slotOf0 .paced [])) 0 :=
  ⟨by decide, 5, 0, by decide, by decide, .inl (by decide)⟩
theorem witness_gate_closed : ¬ GateIsOpen (gated .dark (slotOf0 .paced [])) 0 := by
  rintro ⟨_, x, st, hx, hr, h⟩
  cases (show some 5 = some x from hx)
  cases (show some (0 : StationId) = some st from hr)
  rcases h with h | ⟨f, hf, _⟩
  · cases h
  · cases hf
theorem witness_gate_timers :
    ((gated .live { slotOf0 .paced [] with batchTimer := .held 500 }).batch 0).batchTimer = .held 500 ∧
      ((gated .dark { slotOf0 .paced [] with batchTimer := .running 500 }).batch 0).batchTimer = .running 500 := by decide
theorem witness_lead_at_once : (let s := gated .live { slotOf0 .onDemand [2] with leadDelay := 0 }
    (s.batch 0).leadTimer = .idle ∧ (s.batch 0).outstanding = none ∧ (s.batch 0).leadDelay = 0) ∧
    GateIsOpen (gated .live { slotOf0 .onDemand [2] with leadDelay := 0 }) 0 :=
  ⟨by decide, by decide, 5, 0, by decide, by decide, .inl (by decide)⟩
theorem witness_lead_not_idle : ({ slotOf0 .onDemand [2] with leadTimer := .held 2000 } : Batch).leadTimer ≠ .idle ∧
    (slotOf0 .onDemand [2]).leadDelay ≠ 0 := by decide
theorem test_no_lead_delay_makes_the_batch :
    ((after (.warmerDraw 0 1) (gated .live { slotOf0 .onDemand [3] with leadDelay := 0 })).ticketAt 0).map
      (fun t => t.entries.map Entry.quantity) = some [2] := by decide +kernel
theorem test_expiry_starts_the_lead_timer :
    ((after (.lotExpiry 0) (gated .live (slotOf0 .onDemand [3]))).batch 0).leadTimer = .running 7000 := by decide +kernel
theorem test_restart_without_a_ticket : (after (.restartBatch clerk 0 1) (gated .live (slotOf0 .paced [9]))).exu.answer =
    some (.done [3]) := by decide +kernel
theorem witness_set_batch_at_once : (let s := gated .live (slotOf0 .onDemand [2])
    (s.batch 0).leadTimer = .idle ∧ 2 < (3 : Word).toNat ∧ (s.batch 0).outstanding = none ∧ (0 : Word).toNat = 0) ∧
    GateIsOpen (gated .live (slotOf0 .onDemand [2])) 0 := ⟨by decide, by decide, 5, 0, by decide, by decide, .inl (by decide)⟩
theorem test_gate_lets_run : ((after .gateTest (gated .live { slotOf0 .paced [] with batchTimer := .held 500 })).batch 0).batchTimer =
    .running 500 := by decide +kernel

/-! ### Witnesses: firing and kitchen tickets -/

/-- A shop whose link of station 0 is in a state. -/
def wired (state : LinkState) (c : Check) : State := { stocked (slotOf0 .paced []) c with slc := { links := [(0, linkOf state)] } }

theorem witness_firing_passed_over : (let c := checkOf [lineOf 3 1 .fired]
    (wired .live c).check h0 = some c ∧ c.lines[0]? = some (lineOf 3 1 .fired) ∧ (lineOf 3 1 .fired).fire ≠ .held) := by decide
theorem witness_firing_no_route : (let c := checkOf [lineOf 4 1 .held]
    (wired .live c).check h0 = some c ∧ [0].Nodup ∧ ((wired .live c).item 4).slot = none ∧
    ((wired .live c).stand 0).routes.getD ((wired .live c).item 4).prepRoute.val none = none) := by decide
theorem witness_firing_drawn : (let c := checkOf [lineOf 5 2 .held]
    (stocked (slotOf0 .paced [2]) c).check h0 = some c ∧ ((stocked (slotOf0 .paced [2]) c).item 5).slot = some 0 ∧
    2 ≤ (((stocked (slotOf0 .paced [2]) c).batch 0).lots.map Lot.count).sum ∧ (slotOf0 .paced [2]).mode ≠ .onDemand) := by decide
theorem witness_firing_none_waits : NoneWaits (stocked (slotOf0 .paced [2]) (checkOf [lineOf 5 2 .held])) .tkr .isu :=
  fun _ h => nomatch h
theorem witness_firing_after_a_bump :
    (let s : State := { stocked (slotOf0 .paced []) (checkOf [lineOf 5 2 .held]) with handovers := [.batchBump 0 2, .checkCloseTold h0] }
     s.handovers = [] ++ .batchBump 0 2 :: [.checkCloseTold h0] ∧ (∀ d ∈ [] ++ [Instr.checkCloseTold h0], pathOf d ≠ some (.tkr, .isu)) ∧
     (s.batch 0).item = some 5 ∧ 2 = 0 + min 2 ((s.batch 0).capacity - 0) ∧ 2 ≤ 2) := by decide
theorem test_bump_is_before_the_draw :
    ((after (.firing h0 [0] .fire) { stocked (slotOf0 .paced []) (checkOf [lineOf 5 2 .held]) with handovers := [.batchBump 0 2] }).check h0).map
      (fun c => c.lines.map (fun l => (l.fire, l.drawn))) = some [(.served, true)] := by decide +kernel
theorem witness_firing_ticket : (let c := checkOf [lineOf 3 1 .held, lineOf 5 1 .held]
    (wired .live c).check h0 = some c ∧ [0, 1].Nodup ∧ (wired .live c).ticketAt 0 = none ∧
    (((wired .live c).batch 0).lots.map Lot.count).sum < 1 ∧
    ((wired .live c).stand 0).routes.getD ((wired .live c).item 3).prepRoute.val none = some 0 ∧
    ((wired .live c).stand 0).routes.getD ((wired .live c).item 5).prepRoute.val none = some 0 ∧
    1 ∉ displaysHeld (wired .live c) 0) := by decide
theorem witness_firing_unsent : (let c := checkOf [lineOf 3 1 .held]
    (noRecord c).check h0 = some c ∧ (∀ k, k < 1536 → (noRecord c).ticketAt k ≠ none) ∧
    ((noRecord c).stand 0).routes.getD ((noRecord c).item 3).prepRoute.val none ≠ none) :=
  ⟨by decide, fun k h => noRecord_ticket _ k h, by decide⟩
theorem witness_choose_station :
    (let s : State := { slc := { links := [(4, { linkOf .dark with fallback := some 6 }), (6, linkOf .live)] } }
     (s.link 4).state ≠ .live ∧ (s.link 4).state ≠ .rejoining ∧ (s.link 4).fallback = some 6 ∧ (s.link 6).state = .live) := by decide
theorem test_on_settle_close_makes_two_tickets :
    (let s : State := { shop { group with state := .closed } with
       cks := { (shop { group with state := .closed }).cks with
         stands := [(0, { stand0 with policy := .onSettle, nextDisplay := 41, routes := [some 3, none, some 4, none, none, none, none, none] })] }
       isu := { items := [(1, { isDefined := true }), (2, { isDefined := true, prepRoute := 1 }), (3, { isDefined := true, prepRoute := 2 })] }
       slc := { links := [(3, linkOf .live), (4, { linkOf .dark with fallback := some 6 }), (6, linkOf .live)] } }
     let t := after (.firing h0 [0, 1, 2] .close) s
     (t.check h0).map (fun c => (c.lines.map Line.fire, c.ticketsOut)) = some ([.fired, .served, .fired], 2) ∧
       (t.ticketAt 0).map (fun k => (k.station, k.display)) = some (3, 41) ∧
       (t.ticketAt 1).map (fun k => (k.station, k.display)) = some (6, 42)) := by decide +kernel

theorem witness_delay_join : (let c := checkOf [lineOf 3 1 .held]
    (wired .live c).check ref0.check = some c ∧ c.lines[ref0.line]? = some (lineOf 3 1 .held)) := by decide
theorem witness_delay_expiry : (let c := checkOf [lineOf 4 1 .timing]
    let s : State := { wired .live c with tkr := { delays := [{ ref := ref0, due := 1000 }] } }
    s.check ref0.check = some c ∧ s.tkr.delays = [] ++ { ref := ref0, due := 1000 } :: [] ∧ c.state ≠ .closed ∧
    (1000 : Int) = max 0 ((1000 : Word) - s.exu.dayClock).toInt ∧ FireCause.fire ≠ .close ∧ .firing h0 [0] .fire ∉ s.handovers ∧
    (s.item 4).slot = none ∧ (s.stand c.stand).routes.getD (s.item 4).prepRoute.val none = none) := by decide

theorem test_equal_dues_by_slot_and_line :
    (let s : State := { wired .live (checkOf [lineOf 3 1 .held]) with
       tkr := { delays := [{ ref := { check := { slot := 9, gen := 0 }, line := 0 }, due := 1000 }] } }
     (after (.delayListJoin ref0 1000) s).tkr.delays.map (fun d => d.ref.check.slot) = [0, 9]) := by decide
theorem test_delayed_line_is_fired_to_a_ticket :
    (let s : State := { wired .live (checkOf [lineOf 3 1 .timing]) with tkr := { delays := [{ ref := ref0, due := 1000 }] } }
     let t := after (.delayExpiry ref0) s
     ((t.check h0).map (fun c => c.lines.map Line.fire), (t.ticketAt 0).map Ticket.fireTime) = (some [.fired], some 1000)) := by
  decide +kernel

/-- A part with three order tickets at station 0: 0 in slot 0, 1 waiting, 2 bumped. Ticket 0's line is line 0 of the check. -/
def queued (link : LinkState) : State :=
  { wired link (checkOf [{ lineOf 3 2 .fired with ticket := some tag0 }]) with
    tkr := { tickets := [(0, { ticket := some (orderTicket .shown (some 0)) }), (1, { ticket := some (orderTicket .waiting none) }),
               (2, { ticket := some (orderTicket .bumped none) })]
             queues := [(0, { waiting := [1], shown := [0], bumped := [2] })] } }

theorem queued_ticketAt (link : LinkState) (i : Nat) : (queued link).ticketAt i =
    if i = 0 then some (orderTicket .shown (some 0)) else if i = 1 then some (orderTicket .waiting none)
    else if i = 2 then some (orderTicket .bumped none) else none := by
  unfold State.ticketAt State.ticketRec
  simp only [queued, Table.read]
  split
  · rfl
  · split
    · rfl
    · split <;> rfl

theorem queued_queues (link : LinkState) (st : StationId) : (queued link).queues st =
    if st.val = 0 then { waiting := [1], shown := [0], bumped := [2] } else {} := rfl

/-- Which ticket of `queued` is in which state. -/
theorem queued_state (link : LinkState) (st : StationId) (i : Nat) (state : TicketState) :
    (∃ t, (queued link).ticketAt i = some t ∧ t.station = st ∧ t.state = state) ↔
      st = 0 ∧ ((i = 0 ∧ state = .shown) ∨ (i = 1 ∧ state = .waiting) ∨ (i = 2 ∧ state = .bumped)) := by
  rw [queued_ticketAt]
  constructor
  · rintro ⟨t, ht, hs, he⟩
    split at ht
    · cases ht; exact ⟨hs.symm, .inl ⟨by assumption, he.symm⟩⟩
    · split at ht
      · cases ht; exact ⟨hs.symm, .inr (.inl ⟨by assumption, he.symm⟩)⟩
      · split at ht
        · cases ht; exact ⟨hs.symm, .inr (.inr ⟨by assumption, he.symm⟩)⟩
        · cases ht
  · rintro ⟨rfl, ⟨rfl, rfl⟩ | ⟨rfl, rfl⟩ | ⟨rfl, rfl⟩⟩
    · exact ⟨_, rfl, rfl, rfl⟩
    · exact ⟨_, rfl, rfl, rfl⟩
    · exact ⟨_, rfl, rfl, rfl⟩

theorem queued_queuesOk (link : LinkState) : QueuesOk (queued link) where
  waiting st i := by
    rw [queued_state, queued_queues]
    by_cases h : st.val = 0
    · have h0 : st = 0 := Fin.ext h
      simp [h0]
    · have h0 : st ≠ 0 := fun e => h (by rw [e]; rfl)
      simp [h0]
  shown st i := by
    rw [queued_state, queued_queues]
    by_cases h : st.val = 0
    · have h0 : st = 0 := Fin.ext h
      simp [h0]
    · have h0 : st ≠ 0 := fun e => h (by rw [e]; rfl)
      simp [h0]
  bumped st i := by
    rw [queued_state, queued_queues]
    by_cases h : st.val = 0
    · have h0 : st = 0 := Fin.ext h
      simp [h0]
    · have h0 : st ≠ 0 := fun e => h (by rw [e]; rfl)
      simp [h0]
  once st := by
    rw [queued_queues]
    split <;> decide
  slots i t ht := by
    rw [queued_ticketAt] at ht
    split at ht
    · cases ht; decide
    · split at ht
      · cases ht; decide
      · split at ht
        · cases ht; decide
        · cases ht
  distinct st i j a b hi hj hij := by
    rw [queued_queues] at hi hj
    split at hi
    · simp only [List.mem_singleton] at hi
      split at hj
      · simp only [List.mem_singleton] at hj
        exact (hij (hi.trans hj.symm)).elim
      · contradiction
    · cases hi
  slotOrder st := by
    rw [queued_queues]
    split
    · exact List.pairwise_singleton _ _
    · exact List.Pairwise.nil
  keyOrder st := by
    rw [queued_queues]
    split
    · exact List.pairwise_singleton _ _
    · exact List.Pairwise.nil
  records i t ht := by
    rw [queued_ticketAt] at ht
    split at ht
    · omega
    · split at ht
      · omega
      · split at ht
        · omega
        · cases ht

/-- The delay list and the unsent list each hold line 0 of a check whose slot has been freed. -/
def freedShop : State :=
  { tkr := { delays := [{ ref := ref0, due := 9 }], unsent := [ref0] } }

theorem witness_void_of_a_freed_check : freedShop.check ref0.check = none ∧ ref0 ∈ freedShop.tkr.unsent ∧ ref0 ∉ State.reset.tkr.unsent ∧
    (∀ tk, freedShop.ticket tag0 ≠ some tk) := ⟨by decide, by decide, by decide, fun _ h => nomatch h⟩
theorem test_voids_act_after_the_slot_is_freed :
    ([FireState.timing, .unsent, .served].map (fun was =>
      (let t := after (.kitchenVoid ref0 3 2 { voidedAs was with drawn := true }) freedShop
       (t.tkr.delays.length, t.tkr.unsent.length, t.handovers)))) =
      [(0, 1, []), (1, 0, [.countTake 0 none 2]), (1, 1, [.countTake 0 none 2, .voidReturn 3 none 2])] := by decide +kernel
theorem witness_void_shown : (queued .live).check ref0.check = some (checkOf [{ lineOf 3 2 .fired with ticket := some tag0 }]) ∧
    (queued .live).ticket tag0 = some (orderTicket .shown (some 0)) ∧
    (∃ e ∈ (orderTicket .shown (some 0)).entries, e.ref = .line ref0) ∧ (queued .live).tkr.unsent = [] := by decide
theorem witness_void_shown_wholly : (orderTicket .shown (some 0)).state = .shown ∧ (orderTicket .shown (some 0)).slot = some 0 ∧
    (∀ e ∈ (orderTicket .shown (some 0)).entries.map (fun e => if e.ref = .line ref0 then { e with void := true } else e),
      e.void = true) := by decide
theorem test_void_of_a_shown_ticket_clears_it :
    (let t := after (.kitchenVoid ref0 3 2 (voidedAs .fired)) (queued .live)
     (t.handovers.take 3, t.queues 0, t.ticket tag0)) =
      ([.countTake 0 none 2, .frameHandover 0 (.clearSlot 0),
        .frameHandover 0 (showFrame { index := 1, gen := 0 } (orderTicket .waiting none) 0)],
       { shown := [1], bumped := [2] }, none) := by decide +kernel
theorem witness_void_unsent : (let c := checkOf [lineOf 3 2 .unsent]
    let s : State := { wired .live c with tkr := { unsent := [ref0] } }
    s.check ref0.check = some c ∧ ref0 ∈ s.tkr.unsent) := by decide
theorem witness_void_waiting :
    (let c := checkOf [{ lineOf 3 2 .fired with ticket := some { index := 1, gen := 0 } }]
     let s : State := { queued .live with cks := (shop c).cks }
     s.check ref0.check = some c ∧ s.ticket { index := 1, gen := 0 } = some (orderTicket .waiting none) ∧
     (orderTicket .waiting none).state = .waiting ∧ s.tkr.unsent = []) := by decide

/-- The unsent list holds line 0, of item `x`. -/
def unsentOf (x : ItemId) : State :=
  { wired .live { checkOf [lineOf x 2 .unsent] with ticketsOut := 1 } with tkr := { unsent := [ref0] } }

theorem witness_retry_serves : (unsentOf 4).tkr.unsent = [0].map (fun j => { check := h0, line := j }) ∧ [0].Nodup ∧
    (lineOf 4 2 .unsent).void = false ∧ ((unsentOf 4).stand 0).routes.getD ((unsentOf 4).item 4).prepRoute.val none = none := by decide
theorem witness_retry_places : (unsentOf 3).tkr.unsent = [0].map (fun j => { check := h0, line := j }) ∧
    ((unsentOf 3).stand 0).routes.getD ((unsentOf 3).item 3).prepRoute.val none = some 0 ∧ (unsentOf 3).ticketAt 0 = none ∧
    (∀ a : StationId, 0 ∉ ((unsentOf 3).queues a).waiting ∧ 0 ∉ ((unsentOf 3).queues a).shown) :=
  ⟨by decide, by decide, by decide, fun _ => ⟨List.not_mem_nil, List.not_mem_nil⟩⟩
theorem witness_retry_stops : (let s : State := { noRecord (checkOf [lineOf 3 2 .unsent]) with
      tkr := { (noRecord (checkOf [])).tkr with unsent := [ref0] } }
    ∀ k, k < 1536 → s.ticketAt k ≠ none) := fun k h => noRecord_ticket (checkOf []) k h
theorem witness_retry_empty : (unsentOf 3).tkr.unsent ≠ [] ∧ State.reset.tkr.unsent = [] := by decide
theorem test_retry_pass_places_the_line :
    (let t := retryPass (unsentOf 3)
     (t.tkr.unsent, (t.check h0).map (fun c => (c.lines.map Line.fire, c.ticketsOut, c.ticketsFired))) =
       ([], some ([.fired], 1, 1))) := by decide +kernel

/-- A closed check with a served line: ready. -/
def servedCheck : Check := { checkOf [lineOf 3 1 .served] with state := .closed, holder := none }

theorem witness_order_ready : (shop servedCheck).check h0 = some servedCheck ∧ servedCheck.state = .closed ∧
    servedCheck.orderReady = false ∧ servedCheck.ticketsOut = 0 ∧
    (∀ l ∈ servedCheck.lines, l.void = false → l.fire ≠ .timing ∧ l.fire ≠ .unsent ∧
      (((shop servedCheck).stand servedCheck.stand).policy = .onSettle → l.fire ≠ .held)) ∧
    (∃ l ∈ servedCheck.lines, l.void = false ∧ l.fire = .served) := by decide
theorem witness_order_not_ready : ¬ ({ servedCheck with ticketsOut := 1 } : Check).ticketsOut = 0 := by decide

/-! ### Witnesses: station queues -/

theorem witness_bump_shown : QueuesOk (queued .live) ∧ (queued .live).ticket tag0 = some (orderTicket .shown (some 0)) ∧
    (orderTicket .shown (some 0)).station = 0 ∧ (orderTicket .shown (some 0)).slot = some 0 ∧
    (queued .live).check h0 = some (checkOf [{ lineOf 3 2 .fired with ticket := some tag0 }]) ∧
    ((queued .live).queues 0).bumped.length < 6 := ⟨queued_queuesOk _, by decide, by decide, by decide, by decide, by decide⟩
/-- A part with 8 order tickets at station 0: 0 in slot 0 and 7 in slot 1, and 1 to 6 bumped. -/
def queued8 (c : Check) (handovers : List Instr) : State :=
  { wired .live c with
    handovers := handovers
    tkr := { tickets := (0, { ticket := some (orderTicket .shown (some 0)) }) ::
               ((List.range' 1 6).map (fun i => (i, { ticket := some (orderTicket .bumped none) })) ++
                 [(7, { ticket := some (orderTicket .shown (some 1)) })])
             queues := [(0, { shown := [0, 7], bumped := [1, 2, 3, 4, 5, 6] })] } }

theorem queued8_ticketAt (c : Check) (hs : List Instr) (i : Nat) : (queued8 c hs).ticketAt i =
    if i = 0 then some (orderTicket .shown (some 0)) else if i ≤ 6 then some (orderTicket .bumped none)
    else if i = 7 then some (orderTicket .shown (some 1)) else none := by
  match i with
  | 0 | 1 | 2 | 3 | 4 | 5 | 6 | 7 => rfl
  | n + 8 =>
    unfold State.ticketAt State.ticketRec
    simp [queued8, Table.read, List.range'_succ]

theorem queued8_queues (c : Check) (hs : List Instr) (st : StationId) : (queued8 c hs).queues st =
    if st.val = 0 then { shown := [0, 7], bumped := [1, 2, 3, 4, 5, 6] } else {} := rfl

/-- Which ticket of `queued8` is in which state. -/
theorem queued8_state (c : Check) (hs : List Instr) (st : StationId) (i : Nat) (state : TicketState) :
    (∃ t, (queued8 c hs).ticketAt i = some t ∧ t.station = st ∧ t.state = state) ↔
      st = 0 ∧ (((i = 0 ∨ i = 7) ∧ state = .shown) ∨ ((1 ≤ i ∧ i ≤ 6) ∧ state = .bumped)) := by
  rw [queued8_ticketAt]
  constructor
  · rintro ⟨t, ht, rfl, rfl⟩
    split at ht
    · cases ht; exact ⟨rfl, .inl ⟨.inl (by assumption), rfl⟩⟩
    · split at ht
      · cases ht; exact ⟨rfl, .inr ⟨⟨by omega, by assumption⟩, rfl⟩⟩
      · split at ht
        · cases ht; exact ⟨rfl, .inl ⟨.inr (by assumption), rfl⟩⟩
        · cases ht
  · rintro ⟨rfl, ⟨rfl | rfl, rfl⟩ | ⟨⟨h1, h6⟩, rfl⟩⟩
    · exact ⟨_, rfl, rfl, rfl⟩
    · exact ⟨_, rfl, rfl, rfl⟩
    · refine ⟨orderTicket .bumped none, ?_, rfl, rfl⟩
      rw [if_neg (by omega), if_pos h6]

theorem queued8_queuesOk (c : Check) (hs : List Instr) : QueuesOk (queued8 c hs) where
  waiting st i := by
    rw [queued8_state, queued8_queues]
    by_cases h : st.val = 0
    · simp [show st = 0 from Fin.ext h]
    · simp [show st ≠ 0 from fun e => h (by rw [e]; rfl)]
  shown st i := by
    rw [queued8_state, queued8_queues]
    by_cases h : st.val = 0
    · simp [show st = 0 from Fin.ext h]
    · simp [show st ≠ 0 from fun e => h (by rw [e]; rfl)]
  bumped st i := by
    rw [queued8_state, queued8_queues]
    by_cases h : st.val = 0
    · simp [show st = 0 from Fin.ext h]; omega
    · simp [show st ≠ 0 from fun e => h (by rw [e]; rfl)]
  once st := by
    rw [queued8_queues]
    split <;> decide
  slotOrder st := by
    rw [queued8_queues]
    split
    · refine List.Pairwise.cons ?_ (List.pairwise_singleton _ _)
      intro j hj a b k l ha hb hk hl
      rw [List.mem_singleton.1 hj] at hb
      cases (show some (orderTicket .shown (some 0)) = some a from ha)
      cases (show some (orderTicket .shown (some 1)) = some b from hb)
      cases hk; cases hl; decide
    · exact List.Pairwise.nil
  keyOrder st := by
    rw [queued8_queues]
    split <;> exact List.Pairwise.nil
  slots i t ht := by
    rw [queued8_ticketAt] at ht
    split at ht
    · cases ht; decide
    · split at ht
      · cases ht; decide
      · split at ht
        · cases ht; decide
        · cases ht
  distinct st i j a b hi hj hij ha hb := by
    rw [queued8_queues] at hi hj
    split at hi
    · simp only [List.mem_cons, List.not_mem_nil, or_false] at hi
      split at hj
      · simp only [List.mem_cons, List.not_mem_nil, or_false] at hj
        rw [queued8_ticketAt] at ha hb
        rcases hi with rfl | rfl <;> rcases hj with rfl | rfl
        · exact (hij rfl).elim
        · cases ha; cases hb; decide
        · cases ha; cases hb; decide
        · exact (hij rfl).elim
      · contradiction
    · cases hi
  records i t ht := by
    rw [queued8_ticketAt] at ht
    split at ht
    · omega
    · split at ht
      · omega
      · split at ht
        · omega
        · cases ht

/-- Station 0 shows a batch ticket of slot 0, of 4 units, in record 0. -/
def batchTicket : Ticket :=
  { orderTicket .shown (some 0) with kind := .batch 0, entries := [{ ref := .slot 0, item := 5, quantity := 4 }] }
def cooking : State :=
  { wired .live (checkOf []) with tkr := { tickets := [(0, { ticket := some batchTicket })], queues := [(0, { shown := [0] })] } }

theorem cooking_ticketAt (i : Nat) : cooking.ticketAt i = if i = 0 then some batchTicket else none := by
  unfold State.ticketAt State.ticketRec
  simp only [cooking, Table.read]
  split <;> rfl

theorem cooking_queues (st : StationId) : cooking.queues st = if st.val = 0 then { shown := [0] } else {} := rfl

theorem cooking_state (st : StationId) (i : Nat) (state : TicketState) :
    (∃ t, cooking.ticketAt i = some t ∧ t.station = st ∧ t.state = state) ↔ st = 0 ∧ i = 0 ∧ state = .shown := by
  rw [cooking_ticketAt]
  constructor
  · rintro ⟨t, ht, rfl, rfl⟩
    split at ht
    · cases ht; exact ⟨rfl, by assumption, rfl⟩
    · cases ht
  · rintro ⟨rfl, rfl, rfl⟩; exact ⟨_, rfl, rfl, rfl⟩

theorem cooking_queuesOk : QueuesOk cooking where
  waiting st i := by
    rw [cooking_state, cooking_queues]
    split <;> simp
  shown st i := by
    rw [cooking_state, cooking_queues]
    by_cases h : st.val = 0
    · simp [show st = 0 from Fin.ext h]
    · simp [show st ≠ 0 from fun e => h (by rw [e]; rfl)]
  bumped st i := by
    rw [cooking_state, cooking_queues]
    split <;> simp
  once st := by
    rw [cooking_queues]
    split <;> decide
  slots i t ht := by
    rw [cooking_ticketAt] at ht
    split at ht
    · cases ht; decide
    · cases ht
  distinct st i j a b hi hj hij := by
    rw [cooking_queues] at hi hj
    split at hi
    · split at hj
      · exact (hij ((List.mem_singleton.1 hi).trans (List.mem_singleton.1 hj).symm)).elim
      · contradiction
    · cases hi
  slotOrder st := by
    rw [cooking_queues]
    split
    · exact List.pairwise_singleton _ _
    · exact List.Pairwise.nil
  keyOrder st := by
    rw [cooking_queues]
    split <;> exact List.Pairwise.nil
  records i t ht := by
    rw [cooking_ticketAt] at ht
    split at ht
    · omega
    · cases ht

theorem witness_bump_batch : QueuesOk cooking ∧ cooking.ticket tag0 = some batchTicket ∧ batchTicket.state = .shown ∧
    batchTicket.station = 0 ∧ batchTicket.slot = some 0 ∧ batchTicket.kind = .batch 0 := ⟨cooking_queuesOk, rfl, rfl, rfl, rfl, rfl⟩
theorem test_bump_of_a_batch : (after (.bump 0 tag0) cooking).handovers =
    [.frameHandover 0 (.clearSlot 0), .batchBump 0 4, .keyAnswer 0 .ack] := by decide +kernel

/-- `queued`, with no check left. -/
theorem witness_bump_checkless : (let s : State := { queued .live with cks := {} }
    QueuesOk s ∧ s.ticket tag0 = some (orderTicket .shown (some 0)) ∧ s.check h0 = none) :=
  let k := queued_queuesOk .live
  ⟨{ waiting := k.waiting, shown := k.shown, bumped := k.bumped, once := k.once, slotOrder := k.slotOrder, keyOrder := k.keyOrder
     slots := k.slots, distinct := k.distinct, records := k.records }, by decide, by decide⟩
theorem test_bump_raises_ticket_state_and_fills :
    (let t := after (.bump 0 tag0) (queued .live)
     (t.handovers, (t.queues 0).shown)) =
      ([.frameHandover 0 (.clearSlot 0),
        .noticeRaise { kind := .ticketState, subject := 0, values := [2, 0, 0xFFFFFFFF, 7 * 65536, 0] },
        .frameHandover 0 (showFrame { index := 1, gen := 0 } (orderTicket .waiting none) 0), .keyAnswer 0 .ack], [1]) := by
  decide +kernel

/-- A closed check with one ticket outstanding. -/
def nearlyReady : Check :=
  { checkOf [{ lineOf 3 2 .fired with ticket := some tag0 }] with state := .closed, holder := none, ticketsOut := 1, ticketsFired := 1 }

theorem witness_bump_seventh : QueuesOk (queued8 (checkOf []) []) ∧
    ((queued8 (checkOf []) []).queues 0).bumped = [1, 2, 3, 4, 5] ++ [6] ∧ ([1, 2, 3, 4, 5] : List Nat).length = 5 ∧
    (queued8 (checkOf []) []).ticket tag0 = some (orderTicket .shown (some 0)) := ⟨queued8_queuesOk _ _, rfl, rfl, rfl⟩
theorem witness_bump_ready : QueuesOk (queued8 nearlyReady []) ∧
    ReadyNow (queued8 nearlyReady []) { nearlyReady with ticketsOut := nearlyReady.ticketsOut - 1 } ∧
    .checkCloseTold h0 ∉ (queued8 nearlyReady []).handovers :=
  ⟨queued8_queuesOk _ _, by unfold ReadyNow; decide, fun h => nomatch h⟩
theorem witness_bump_before_the_close : QueuesOk (queued8 nearlyReady [.checkCloseTold h0]) ∧
    .checkCloseTold h0 ∈ (queued8 nearlyReady [.checkCloseTold h0]).handovers := ⟨queued8_queuesOk _ _, List.mem_cons_self⟩
theorem witness_bump_not_ready : ¬ ReadyNow (queued8 (checkOf []) []) (checkOf []) := by unfold ReadyNow; decide

/-- R63, first row: the flag after a bump taken before the close reaches the router, and after the close. -/
theorem test_close_raises_order_ready :
    (let t := after (.bump 0 tag0) (queued8 nearlyReady [.checkCloseTold h0])
     ((t.check h0).map Check.orderReady, ((after (.checkCloseTold h0) t).check h0).map Check.orderReady) = (some false, some true)) := by
  decide +kernel
theorem test_bump_after_the_close_raises_order_ready :
    ((after (.bump 0 tag0) (queued8 nearlyReady [])).check h0).map Check.orderReady = some true := by decide +kernel

theorem witness_shown_slots_rise : QueuesOk (queued8 (checkOf []) []) ∧ 0 < 1 ∧
    ((queued8 (checkOf []) []).queues 0).shown[0]? = some 0 ∧ ((queued8 (checkOf []) []).queues 0).shown[1]? = some 7 ∧
    (orderTicket .shown (some 0)).slot = some 0 ∧ (orderTicket .shown (some 1)).slot = some 1 :=
  ⟨queued8_queuesOk _ _, by decide, rfl, rfl, rfl, rfl⟩

theorem witness_bump_stale : QueuesOk (queued .live) ∧
    ∀ tk, (queued .live).ticket { index := 1, gen := 0 } = some tk → tk.state = .shown → tk.station ≠ 0 := by
  refine ⟨queued_queuesOk _, ?_⟩
  intro tk h1 h2
  cases (show some (orderTicket .waiting none) = some tk from h1)
  cases h2
theorem witness_recall : QueuesOk (queued .live) ∧ 2 ∈ ((queued .live).queues 0).bumped ∧
    ((queued .live).queues 0).bumped.head? = some 2 ∧ (queued .live).ticketAt 2 = some (orderTicket .bumped none) ∧
    (orderTicket .bumped none).kind = .order 0 h0 7 ∧ ((queued .live).link 0).state = .live ∧
    freeSlot (queued .live) 0 = some 1 ∧ ((queued .live).tagAt 2).toWord = 2 :=
  ⟨queued_queuesOk _, by decide, by decide, by decide, by decide, by decide, by decide, by decide⟩
theorem witness_recall_late : QueuesOk ((queued .live).advance 300000) ∧
    LateInForce (((queued .live).advance 300000).pace 0) * 1000 = ((queued .live).advance 300000).uptime ∧
    (orderTicket .bumped none).firedAt = 0 ∧ (orderTicket .bumped none).late = false := by
  refine ⟨?_, by decide, rfl, rfl⟩
  exact
    let k := queued_queuesOk .live
    { waiting := k.waiting, shown := k.shown, bumped := k.bumped, once := k.once, slotOrder := k.slotOrder, keyOrder := k.keyOrder
      slots := k.slots, distinct := k.distinct, records := k.records }
theorem test_recall_tests_lateness :
    ([299999, 300000].map (fun ms => ((after (.recall 0 tag0) ((queued .live).advance ms)).ticketAt 2).map
      (fun t => (t.late, t.lateDue)))) = [some (false, some 300000), some (true, none)] := by decide +kernel

theorem witness_recall_empty : QueuesOk (queued .live) ∧ ((queued .live).queues 1).bumped = [] := ⟨queued_queuesOk _, by decide⟩
theorem witness_recall_ticket_refused : tagOf 1535 = some { index := 1535, gen := 0 } ∧
    (queued .live).ticket { index := 1535, gen := 0 } = none ∧ (orderTicket .waiting none).state ≠ .bumped := by decide
theorem witness_prioritize : (queued .live).ticket tag0 = some (orderTicket .shown (some 0)) ∧
    (orderTicket .shown (some 0)).kind = .order 0 h0 7 ∧ (orderTicket .shown (some 0)).state ≠ .bumped ∧
    (orderTicket .shown (some 0)).cls ≠ .suite ∧ (orderTicket .shown (some 0)).cls = .normal := by decide
theorem witness_timers_of_ticket :
    (let tk := { orderTicket .shown (some 0) with focusDue := some 30000, lateDue := some 300000 }
     let s : State := { tkr := { tickets := [(0, { ticket := some tk })] } }
     s.ticket tag0 = some tk ∧ tk.focusDue = some 30000 ∧ tk.lateDue = some 300000) := by decide
theorem witness_fill : QueuesOk (queued .live) ∧ ((fillAndTest 0 (queued .live)).link 0).state = .live ∧
    ((fillAndTest 0 (queued .live)).queues 0).waiting = [] := ⟨queued_queuesOk _, by decide, by decide⟩
theorem grill_ticketAt (i : Nat) : grill.ticketAt i =
    if i = 40 then some (grillTicket 1 .normal 1000000 (some (0, 1010000, 1030000)))
    else if i = 41 then some (grillTicket 2 .normal 1020000 (some (1, 1030000, 1060000)))
    else if i = 44 then some (grillTicket 1 .express 1025000 (some (2, 1040000, 1060000)))
    else if i = 47 then some (grillTicket 1 .normal 1041000 (some (3, 1045000, 1065000)))
    else if i = 52 then some (grillTicket 2 .normal 1046000 none)
    else if i = 55 then some (grillTicket 2 .suite 1050000 none) else none := by
  unfold State.ticketAt State.ticketRec
  simp only [grill, Table.read]
  repeat' split
  all_goals rfl

theorem grill_queues (st : StationId) : grill.queues st =
    if st.val = 9 then { waiting := [55, 52], shown := [40, 41, 44, 47] } else {} := rfl

/-- Which ticket of the grill is in which state. -/
theorem grill_state (st : StationId) (i : Nat) (state : TicketState) :
    (∃ t, grill.ticketAt i = some t ∧ t.station = st ∧ t.state = state) ↔
      st = 9 ∧ ((i ∈ [40, 41, 44, 47] ∧ state = .shown) ∨ (i ∈ [55, 52] ∧ state = .waiting)) := by
  rw [grill_ticketAt]
  constructor
  · rintro ⟨t, ht, rfl, rfl⟩
    repeat' split at ht
    all_goals first | (cases ht; subst_vars; decide) | cases ht
  · simp only [List.mem_cons, List.not_mem_nil, or_false]
    rintro ⟨rfl, ⟨rfl | rfl | rfl | rfl, rfl⟩ | ⟨rfl | rfl, rfl⟩⟩ <;> exact ⟨_, rfl, rfl, rfl⟩

theorem grill_queuesOk : QueuesOk grill where
  waiting st i := by
    rw [grill_state, grill_queues]
    by_cases h : st.val = 9
    · obtain rfl : st = 9 := Fin.ext h
      rw [if_pos h]; simp
    · simp [h, show st ≠ 9 from fun e => h (by rw [e]; rfl)]
  shown st i := by
    rw [grill_state, grill_queues]
    by_cases h : st.val = 9
    · obtain rfl : st = 9 := Fin.ext h
      rw [if_pos h]; simp
    · simp [h, show st ≠ 9 from fun e => h (by rw [e]; rfl)]
  bumped st i := by
    rw [grill_state, grill_queues]
    by_cases h : st.val = 9
    · obtain rfl : st = 9 := Fin.ext h
      rw [if_pos h]; simp
    · simp [h, show st ≠ 9 from fun e => h (by rw [e]; rfl)]
  once st := by
    rw [grill_queues]
    split <;> decide
  slotOrder st := by
    rw [grill_queues]
    split
    · simp only [List.pairwise_cons, List.mem_cons, List.not_mem_nil, or_false, forall_eq_or_imp, forall_eq, SlotBefore, grill_ticketAt]
      refine ⟨⟨?_, ?_, ?_⟩, ⟨?_, ?_⟩, ?_, ⟨(fun _ h => nomatch h), List.Pairwise.nil⟩⟩ <;>
        (intro a b k l ha hb hk hl; cases ha; cases hb; cases hk; cases hl; decide)
    · exact List.Pairwise.nil
  keyOrder st := by
    rw [grill_queues]
    split
    · simp only [List.pairwise_cons, List.mem_cons, List.not_mem_nil, or_false, forall_eq, KeyBefore, grill_ticketAt]
      refine ⟨?_, ⟨(fun _ h => nomatch h), List.Pairwise.nil⟩⟩
      intro a b ha hb
      cases ha; cases hb; decide
    · exact List.Pairwise.nil
  slots i t ht := by
    rw [grill_ticketAt] at ht
    repeat' split at ht
    all_goals first | (cases ht; decide) | cases ht
  distinct st i j a b hi hj hij ha hb := by
    rw [grill_queues] at hi hj
    split at hi
    · simp only [List.mem_cons, List.not_mem_nil, or_false] at hi hj
      rename_i h9
      simp only [h9, if_true, List.mem_cons, List.not_mem_nil, or_false] at hj
      rw [grill_ticketAt] at ha hb
      rcases hi with rfl | rfl | rfl | rfl <;> rcases hj with rfl | rfl | rfl | rfl <;>
        first | exact (hij rfl).elim | (cases ha; cases hb; decide)
    · cases hi
  records i t ht := by
    rw [grill_ticketAt] at ht
    repeat' split at ht
    all_goals first | omega | cases ht

theorem grill_later (ms : Nat) : QueuesOk (grill.advance ms) :=
  let k := grill_queuesOk
  { waiting := k.waiting, shown := k.shown, bumped := k.bumped, once := k.once, slotOrder := k.slotOrder, keyOrder := k.keyOrder
    slots := k.slots, distinct := k.distinct, records := k.records }

theorem witness_displacement : QueuesOk (grill.advance 5000) ∧ displacement (grill.advance 5000) 9 = some (47, 55) :=
  ⟨grill_later _, by decide +kernel⟩
theorem witness_no_displacement_yet : QueuesOk (grill.advance 4999) ∧ displacement (grill.advance 4999) 9 = none :=
  ⟨grill_later _, by decide +kernel⟩
theorem witness_station_dark : QueuesOk (queued .dark) ∧ (LinkState.dark = .dark) ∧ ((queued .dark).link 0).fallback = none :=
  ⟨queued_queuesOk _, rfl, by decide⟩
theorem witness_station_rejoining : QueuesOk (queued .rejoining) ∧ ((queued .rejoining).link 0).state = .rejoining ∧
    0 ∈ ((queued .rejoining).queues 0).shown ∧ (orderTicket .shown (some 0)).slot = some 0 :=
  ⟨queued_queuesOk _, by decide, by decide, by decide⟩
/-- `queued`, with the links of station 0 and station 1 given. -/
def linked (a b : Link) : State := { queued .live with slc := { links := [(0, a), (1, b)] } }

theorem linked_queuesOk (a b : Link) : QueuesOk (linked a b) :=
  let k := queued_queuesOk .live
  { waiting := k.waiting, shown := k.shown, bumped := k.bumped, once := k.once, slotOrder := k.slotOrder, keyOrder := k.keyOrder
    slots := k.slots, distinct := k.distinct, records := k.records }

theorem witness_fallback_change : (let s := linked { linkOf .dark with fallback := some 1 } (linkOf .live)
    QueuesOk s ∧ (s.link 0).fallback = some 1 ∧ (s.link 1).state = .live ∧ (s.link 0).state ≠ .live ∧ (s.link 0).state ≠ .rejoining) :=
  ⟨linked_queuesOk _ _, by decide, by decide, by decide, by decide⟩
theorem witness_fallback_unchanged : (let s := linked { linkOf .starting with fallback := some 1 } (linkOf .dark)
    QueuesOk s ∧ (∀ f, (s.link 0).fallback = some f → (s.link f).state ≠ .live)) :=
  ⟨linked_queuesOk _ _, fun f h => by cases (show some 1 = some f from h); decide⟩
theorem witness_dark_with_fallback : (let s := linked { linkOf .dark with fallback := some 1 } (linkOf .live)
    QueuesOk s ∧ (s.link 0).state = .dark ∧ (s.link 0).fallback = some 1 ∧ (s.link 1).state = .live ∧
      0 ∈ (s.queues 0).shown ∧ 1 ∈ (s.queues 0).waiting) :=
  ⟨linked_queuesOk _ _, by decide, by decide, by decide, by decide, by decide⟩
theorem witness_offline_no_live_fallback : (let s := linked { linkOf .offline with fallback := some 1 } (linkOf .dark)
    QueuesOk s ∧ (s.link 0).fallback = some 1 ∧ (s.link 1).state ≠ .live) := ⟨linked_queuesOk _ _, by decide, by decide⟩
theorem test_dark_station_hands_over_its_queue :
    (let t := after (.linkStateTkr 0 .dark none) (linked { linkOf .dark with fallback := some 1 } (linkOf .live))
     (t.queues 0, (t.queues 1).shown)) = ({ bumped := [2] }, [0, 1]) := by decide +kernel
theorem witness_told_live : (let s := linked (linkOf .live) { linkOf .dark with fallback := some 0 }
    QueuesOk s ∧ (s.link 0).state = .live ∧ (s.link 1).fallback = some 0 ∧ (s.link 1).state ≠ .live ∧ (s.link 1).state ≠ .rejoining) :=
  ⟨linked_queuesOk _ _, by decide, by decide, by decide, by decide⟩
theorem witness_told_live_alone : QueuesOk (linked (linkOf .live) (linkOf .dark)) ∧
    ((linked (linkOf .live) (linkOf .dark)).link 0).state = .live ∧
    (∀ a, ((linked (linkOf .live) (linkOf .dark)).link a).fallback ≠ some 0) := by
  refine ⟨linked_queuesOk _ _, by decide, fun a => ?_⟩
  by_cases h0 : a.val = 0
  · simp [State.link, linked, Table.read, h0, linkOf]
  · by_cases h1 : a.val = 1
    · simp [State.link, linked, Table.read, h1, linkOf]
    · simp [State.link, linked, Table.read, h0, h1]
theorem test_live_takes_a_stranded_queue :
    (let t := after (.linkStateTkr 1 .live none) (linked { linkOf .dark with fallback := some 1 } (linkOf .live))
     ((t.queues 0).waiting, (t.queues 1).shown) = ([], [1])) := by decide +kernel
theorem test_pace_change_uses_the_values_handed :
    ((after (.paceChangeTkr 0 ⟨.busy, 5, 60⟩) (queued .live)).ticketAt 1).map Ticket.lateDue = some (some 60000) := by decide +kernel
theorem witness_pace_change : QueuesOk (queued .live) ∧ (queued .live).ticketAt 1 = some (orderTicket .waiting none) ∧
    (orderTicket .waiting none).kind = .order 0 h0 7 ∧ (orderTicket .waiting none).state ≠ .bumped :=
  ⟨queued_queuesOk _, by decide, by decide, by decide⟩
theorem witness_pace_focus : QueuesOk (queued .live) ∧ (queued .live).ticketAt 0 = some (orderTicket .shown (some 0)) ∧
    StandOfTicket (queued .live) (orderTicket .shown (some 0)) 0 ∧ (orderTicket .shown (some 0)).state = .shown ∧
    (orderTicket .shown (some 0)).focusDue = some 30000 ∧ (orderTicket .shown (some 0)).shownTime = some 0 ∧
    0 ∈ ((queued .live).queues 0).shown :=
  ⟨queued_queuesOk _, by decide, .inl ⟨h0, 7, rfl⟩, rfl, rfl, rfl, by decide⟩
theorem test_pace_change_moves_the_focus_timer :
    ((after (.paceChangeTkr 0 ⟨.busy, 5, 60⟩) ((queued .live).advance 2000)).ticketAt 0).map Ticket.focusDue = some (some 5000) ∧
    ((after (.paceChangeTkr 0 ⟨.busy, 5, 60⟩) ((queued .live).advance 5000)).ticketAt 0).map Ticket.focusDue = some none := by
  decide +kernel
theorem test_day_close_clears_the_display : (after .tkrDayClose (queued .live)).handovers = [.frameHandover 0 (.clearSlot 0)] := by
  decide +kernel

/-! ### Witnesses: station links -/

/-- Station 0's link alone. -/
def line (l : Link) : State := { slc := { links := [(0, l)] } }
def flying (l : Link) (sent : Bool) : Link :=
  { l with inFlight := some { frame := .clearSlot 0, isProbe := false, rejoin := false, sent := sent },
           statusDue := if sent then some 40 else none }

theorem witness_key_offline : ((line (linkOf .offline)).link 0).state = .offline := by decide
theorem witness_key_answered_at_once : (linkOf .live).state ≠ .offline ∧ (linkOf .live).Quiet ∧ (linkOf .dark).Quiet :=
  ⟨by decide, ⟨(fun f h => nomatch h), rfl, .inl rfl⟩, ⟨(fun f h => nomatch h), rfl, .inl rfl⟩⟩
theorem witness_key_answer_waits : ∃ f, (flying (linkOf .live) false).inFlight = some f ∧ f.sent = false := ⟨_, rfl, rfl⟩
theorem witness_key_passed : (1 : Byte) = 1 ∧ (linkOf .live).state = .live ∧ tagOfBytes 0xFF 0xF5 = { index := 1535, gen := 15 } := by
  decide
theorem witness_key_decided :
    (let l : Link := { linkOf .live with answers := [none, some .stale, none] }
     l.answers = none :: ([StatusCode.stale].map some ++ [none]) ∧ (∃ more, ([none] : List (Option StatusCode)) = none :: more) ∧
       l.outbox = [] ∧ l.inFlight = none) := ⟨rfl, ⟨[], rfl⟩, rfl, rfl⟩
theorem test_key_bump_is_passed : (after (.keyFrame 0 [1, 0x28, 0x20] true) (line (linkOf .live))).handovers =
    [.bump 0 { index := 40, gen := 2 }] := by decide

theorem witness_hello : ((line (linkOf .starting)).link 0).answers = [] ∧ (linkOf .starting).state ≠ .offline ∧
    (4 : Byte).toNat = 4 ∧ (3 : Byte).toNat < 4 ∧ 8 < (9 : Byte).toNat := by decide
theorem witness_status_discarded : ((line (linkOf .live)).link 0).inFlight = none := by decide
theorem witness_status_in_flight : ((line (flying (linkOf .live) true)).link 0).inFlight =
      some { frame := .clearSlot 0, isProbe := false, rejoin := false, sent := true } ∧
    ((line (flying (linkOf .live) true)).link 0).statusDue ≠ none ∧ (flying (linkOf .live) true).failures = 0 ∧
    (flying (linkOf .live) true).busies + 1 < 10 ∧ (flying (linkOf .live) true).outbox = [] := by decide
theorem witness_status_of_a_resend :
    (let l : Link := { flying (linkOf .live) false with failures := 1 }
     (line l).link 0 = l ∧ l.answers = [] ∧ l.inFlight = some { frame := .clearSlot 0, isProbe := false, rejoin := false, sent := false } ∧
       l.failures ≠ 0 ∧ l.busies + 1 < 10) := by decide
theorem witness_status_next_frame :
    ({ flying (linkOf .live) true with outbox := [{ frame := .clearAll }] } : Link).outbox = { frame := .clearAll } :: [] ∧
      ({ flying (linkOf .live) true with failures := 1, busies := 9 } : Link).failures ≠ 0 ∧ 10 ≤ 9 + 1 := by decide
theorem witness_status_rejoin_done :
    (let l : Link := { linkOf .rejoining with
       inFlight := some { frame := .clearAll, isProbe := false, rejoin := true, sent := true }, statusDue := some 40 }
     l.outbox = [] ∧ l.refreshAwaited = false ∧ l.statusDue ≠ none) := by decide
theorem witness_status_probe :
    (let l : Link := { linkOf .dark with
       inFlight := some { frame := .probe, isProbe := true, rejoin := false, sent := true }, statusDue := some 40 }
     l.state ≠ .live ∧ l.state ≠ .rejoining ∧ 4 = l.reported.getD l.hint) := by decide

theorem witness_outbox_dropped : (linkOf .dark).state ≠ .live ∧ (linkOf .dark).state ≠ .rejoining ∧
    ({ linkOf .live with refreshAwaited := true } : Link).refreshAwaited = true := by decide
theorem witness_outbox_joins : (let l : Link := { flying (linkOf .live) true with outbox := List.replicate 15 { frame := .clearAll } }
    l.outbox.length < 16 ∧ l.inFlight ≠ none ∧ l.answers = [] ∧ l.refreshAwaited = false) := by decide
theorem witness_outbox_full : (let l : Link := { linkOf .live with outbox := List.replicate 16 { frame := .clearAll } }
    16 ≤ l.outbox.length ∧ l.refreshAwaited = false) := by decide
theorem witness_refresh_answer : (let l : Link := { flying (linkOf .live) true with refreshAwaited := true }
    l.refreshAwaited = true ∧ l.outbox = [] ∧ l.answers = [] ∧ l.state = .live ∧ l.inFlight ≠ none) ∧
    (let l : Link := { linkOf .live with refreshAwaited := true }
     l.refreshAwaited = true ∧ l.inFlight = none ∧ l.state = .live ∧
       RefreshOf false [.clearAll] = { frame := .clearAll, rejoin := false } :: []) ∧
    (let l : Link := { linkOf .rejoining with refreshAwaited := true }
     l.refreshAwaited = true ∧ l.inFlight = none ∧ l.state = .rejoining ∧
       RefreshOf true [.clearAll] = { frame := .clearAll, rejoin := true } :: [] ∧
       RefreshOf true [.clearAll, .clearSlot 7] = { frame := .clearAll, rejoin := false } :: [{ frame := .clearSlot 7, rejoin := true }]) := by
  decide
theorem test_empty_refresh_carries_the_mark :
    (((after (.refreshAnswer 0 0 []) (line { linkOf .rejoining with refreshAwaited := true })).link 0).inFlight.map Flight.rejoin) =
      some true := by decide
theorem witness_frame_sent : ((line (flying (linkOf .live) false)).link 0).inFlight =
    some { frame := .clearSlot 0, isProbe := false, rejoin := false, sent := false } := by decide
theorem witness_link_timers : (flying (linkOf .live) true).statusDue = some 40 ∧
    ({ flying (linkOf .live) true with busyDue := some 40 } : Link).busyDue = some 40 ∧
    ({ linkOf .dark with probeDue := some 2000 } : Link).probeDue = some 2000 ∧ (linkOf .dark).inFlight = none := by decide

theorem witness_bytes_read : ((line (linkOf .live)).link 0).receiver = .hunting ∧ (List.replicate 64 (0xC3 : Byte)).length ≤ 64 ∧
    (∀ b, Instr.byteArrival 0 b ∉ (line (linkOf .live)).handovers) := ⟨by decide, by decide, fun b h => nomatch h⟩
theorem test_bytes_of_key_and_hello :
    (ranAll (([0xC3, 0x21, 3, 1, 0x28, 0x20, 0x93] : List Byte).map (.byteArrival 0)) (line (linkOf .live))).map State.handovers =
      some [.keyFrame 0 [1, 0x28, 0x20] true] ∧
    (ranAll (([0xC3, 0x22, 1, 3, 0xDB] : List Byte).map (.byteArrival 0)) (line (linkOf .live))).map State.handovers =
      some [.hello 0 [3] false] := by decide +kernel
/-- Station 0's receiver has taken these bytes after a lead byte, the last at 10 ms. -/
def heard (bytes : List Byte) (now : Nat) : State := { line { linkOf .live with receiver := .assembling bytes 10 } with uptime := now }

theorem witness_bytes_assembled : ((heard [0x21] 15).link 0).receiver = .assembling [0x21] 10 ∧ (heard [0x21] 15).uptime ≤ 10 + 5 ∧
    (64 : Byte).toNat ≤ 64 ∧ 64 < (65 : Byte).toNat ∧ ([] : List Byte).length = (0 : Byte).toNat ∧
    (List.replicate 63 (0 : Byte)).length < (64 : Byte).toNat := by decide
theorem test_length_65_is_discarded : (let t := after (.byteArrival 0 65) (heard [0x21] 15)
    ((t.link 0).receiver, t.handovers)) = (.hunting, []) ∧
    ((after (.byteArrival 0 64) (heard [0x21] 15)).link 0).receiver = .assembling [0x21, 64] 15 := by decide
theorem test_gap_timeout_discards : (let t := after (.receiveGapTimeout 0) (heard [0x21, 3, 1] 12)
    ((t.link 0).receiver, t.uptime)) = (.hunting, 16) := by decide
theorem witness_bytes_gap :
    (let s : State := { line { linkOf .live with receiver := .assembling [1] 10 } with uptime := 16 }
     (s.link 0).receiver = .assembling [1] 10 ∧ 10 + 5 < s.uptime) := by decide
theorem witness_bytes_discarded : (0xC2 : Byte) ≠ 0xC3 := by decide
theorem witness_request_words : encodeRequest (.setTill boss 96 15 1) = some (0x1C, boss, [96, 15, 1]) := by decide

theorem witness_set_station : (23 : Word).toNat = (23 : StationId).val ∧ (8 : Word).toNat ≤ 8 ∧ (22 : Word).toNat = (22 : StationId).val ∧
    (some 22 : Option StationId) ≠ some 23 ∧ boss.authority = .supervisor ∧ (State.reset.link 23).active = false ∧
    (State.reset.link 23).answers = ([] : List StatusCode).map some ++ [] := by decide
theorem witness_set_station_stops : (let l : Link := { flying (linkOf .live) false with answers := [some .ack, none, some .stale] }
    l.active = true ∧ l.answers = [StatusCode.ack].map some ++ none :: [some .stale]) := by decide
theorem test_stopped_link_sends_its_answers :
    (let t := after (.setStation boss 0 0 0xFFFFFFFF 4) (line { flying (linkOf .live) false with answers := [some .ack] })
     ((t.link 0).answers, (t.link 0).wire) = ([], [frameBytes (.status .ack)])) := by decide

/-! ### Witnesses: Demand Watch -/

theorem witness_sample_pending : ({ dmw := { pendingPeriod := some 60 } } : State).dmw.pendingPeriod = some 60 ∧
    State.reset.dmw.pendingPeriod = none := ⟨rfl, rfl⟩
theorem witness_set_pace_period : 5 ≤ (5 : Word).toNat ∧ (60 : Word).toNat ≤ 60 ∧ (4 : Word).toNat < 5 ∧ 60 < (61 : Word).toNat := by
  decide
theorem witness_set_pace_levels : (15 : Word).toNat = (15 : StandId).val ∧ 10 ≤ (600 : Word).toNat ∧ (600 : Word).toNat ≤ 600 ∧
    (360 : Word).toNat ≤ 360 ∧ (4 : Word).toNat ≤ 4 ∧ (8 : Word).toNat ≤ 8 ∧ (3 : Word).toNat < (1048560 : Word).toNat ∧
    (1048560 : Word).toNat ≤ 1048560 ∧ (1 : Word).toNat < (2 : Word).toNat ∧ (2 : Word).toNat ≤ (3 : Word).toNat := by decide
theorem witness_set_pace_times : 5 ≤ (120 : Word).toNat ∧ (120 : Word).toNat ≤ 120 ∧ 60 ≤ (1800 : Word).toNat ∧
    (1800 : Word).toNat ≤ 1800 := by decide
theorem witness_set_pace_refused : (16 : Word).toNat > 15 ∧ 4 ≤ (4 : Word).toNat ∧ ¬ (3 : Word).toNat < (3 : Word).toNat ∧
    ¬ 10 ≤ (9 : Word).toNat ∧ ¬ (361 : Word).toNat ≤ 360 ∧ ¬ (5 : Word).toNat ≤ 4 ∧ ¬ (1800 : Word).toNat < 60 ∧ ¬ 5 ≤ (4 : Word).toNat := by
  decide
theorem test_set_pace_refusals :
    ([Instr.setPace boss 1 2 96 48 192 192 60 60 2 6, .setPace boss 1 2 96 48 320 192 9 60 2 6, .setPace boss 1 2 96 48 320 192 60 60 2 9,
      .setPace boss 2 2 4 30 30 300 300 300 0 0, .setPace boss 3 2 4 0 0 0 0 0 0 0, .setPace boss 3 16 0 0 0 0 0 0 0 0].map
        (fun c => (after c State.reset).exu.answer)) = List.replicate 6 (some (.refused .range none)) := by decide
theorem witness_set_pace_level : (2 : Word) = BitVec.ofNat 32 Level.rush.code ∧ (3 : Word) = 3 ∧ boss.authority = .supervisor := by
  decide

/-! ### Witnesses: the invariants hold somewhere, and a step follows -/

theorem test_soft_reset_of_the_links :
    (let busy : Link := { flying (linkOf .live) true with failures := 1, busies := 2, busyDue := some 9, refreshAwaited := true }
     let idle : Link := { linkOf .offline with receiver := .assembling [1] 0, reported := some 5 }
     let t := after (.softReset false) { slc := { links := [(0, busy), (1, idle)] } }
     (t.link 0, t.link 1)) =
      ({ linkOf .starting with probeDue := some 2000 }, { linkOf .offline with receiver := .assembling [1] 0, reported := some 5 }) := by
  decide +kernel

theorem test_soft_reset_holds_the_timers :
    (let t := after (.softReset false) { stocked { slotOf0 .paced [2] with pendingInterval := some 45, leadTimer := .held 7 }
         (checkOf []) with slc := { links := [(0, linkOf .live)] } }
     t.batch 0) = { slotOf0 .paced [] with batchTimer := .held 60000 } := by decide +kernel

theorem witness_soft_reset_no_link_live : ∀ st : StationId, ((line (linkOf .live)).link st).active = false →
    ((line (linkOf .live)).link st).state ≠ .live := by decide

theorem witness_exchange_kept : ExchangeOk (posted none) :=
  { memory := by decide, chains := by decide, runRegion := by decide, base := by decide, line := by decide, buffer := by decide,
    interval := by decide }
theorem witness_stock_kept : StockOk (stocked (slotOf0 .paced [2, 3]) (checkOf [])) := stocked_stockOk _ _ rfl (by decide)
theorem witness_ended_listed : EndedListed (endedShop .closed) ∧ EndedListed (endedShop .exported) ∧
    ((endedShop .closed).check h0).map Check.state = some .closed := ⟨endedShop_endedListed _, endedShop_endedListed _, by decide⟩
theorem witness_holding_kept : HoldingOk (endedShop .closed) ∧ MoneyOk (endedShop .closed) :=
  ⟨endedShop_holdingOk _ (.inl rfl), endedShop_moneyOk⟩
theorem witness_queues_kept : QueuesOk (queued .live) := queued_queuesOk _

end Sys2Proof.Tests
end

section
/-! The Split Engine's arithmetic (R37 to R43): what one allocation gives each payer, and how the payers' rows of a due table add up
to the check's figures. -/

namespace Sys2Proof.Machine

/-! ### Sums over the payers -/

theorem sum_indicator (p : Nat → Bool) (l : List Nat) : (l.map (fun i => if p i then 1 else 0)).sum = l.countP p := by
  induction l with
  | nil => rfl
  | cons i l ih => rw [List.map_cons, List.sum_cons, List.countP_cons, ih, Nat.add_comm]

theorem sum_map_zero {α : Type} (l : List α) : (l.map (fun _ => 0)).sum = 0 := by
  induction l with
  | nil => rfl
  | cons x l ih => rw [List.map_cons, List.sum_cons, ih]

/-- Two figures of each element, summed together or apart. -/
theorem sum_map_add_apart {α : Type} (f g : α → Nat) (l : List α) :
    (l.map (fun x => f x + g x)).sum = (l.map f).sum + (l.map g).sum := by
  induction l with
  | nil => rfl
  | cons x l ih => simp only [List.map_cons, List.sum_cons, ih]; omega

theorem map_getD_range_length (l : List Nat) : (List.range l.length).map (fun p => l.getD p 0) = l := by
  refine List.ext_getElem (by simp) fun p _ hp => ?_
  simp [hp]

/-- A column of figures, one for each of `n` payers, read payer by payer. -/
theorem sum_getD_range {n : Nat} {l : List Nat} (h : l.length = n) :
    ((List.range n).map (fun p => l.getD p 0)).sum = l.sum := by
  rw [← h, map_getD_range_length]

theorem addEach_length {a b : List Nat} (h : a.length = b.length) : (addEach a b).length = a.length := by
  simp [addEach, h]

theorem addEach_sum {a b : List Nat} (h : a.length = b.length) : (addEach a b).sum = a.sum + b.sum := by
  induction a generalizing b with
  | nil => rw [List.eq_nil_of_length_eq_zero h.symm]; rfl
  | cons x a ih =>
    cases b with
    | nil => cases h
    | cons y b =>
      have hrest := ih (Nat.succ.inj h)
      have hsplit : (addEach (x :: a) (y :: b)).sum = x + y + (addEach a b).sum := List.sum_cons
      rw [hsplit, hrest, List.sum_cons, List.sum_cons]
      omega

/-! ### The choosing order (R38 step 4) -/

theorem insertBy_perm {α : Type} (before : α → α → Bool) (x : α) (l : List α) : (insertBy before x l).Perm (x :: l) := by
  induction l with
  | nil => exact .refl _
  | cons y l ih =>
    unfold insertBy
    split
    · exact .refl _
    · exact (ih.cons y).trans (.swap x y l)

theorem sortBy_perm {α : Type} (before : α → α → Bool) (l : List α) : (sortBy before l).Perm l := by
  induction l with
  | nil => exact .refl _
  | cons x l ih => exact (insertBy_perm _ x _).trans (ih.cons x)

theorem cyclicFrom_perm (n c : Nat) : (cyclicFrom n c).Perm (List.range n) :=
  List.perm_append_comm.trans (by rw [List.take_append_drop])

/-- Wherever the cursor stands, the payers to choose from are those of weight above 0. -/
theorem choosingOrder_perm (a total : Nat) (ws : List Nat) (c : Nat) :
    (choosingOrder a total ws c).Perm ((List.range ws.length).filter (fun p => decide (0 < ws.getD p 0))) :=
  (sortBy_perm _ _).trans ((cyclicFrom_perm _ c).filter _)

theorem choosingOrder_nodup (a total : Nat) (ws : List Nat) (c : Nat) : (choosingOrder a total ws c).Nodup :=
  (choosingOrder_perm a total ws c).nodup_iff.2 (List.nodup_range.filter _)

theorem mem_choosingOrder {a total : Nat} {ws : List Nat} {c p : Nat} :
    p ∈ choosingOrder a total ws c ↔ p < ws.length ∧ 0 < ws.getD p 0 := by
  rw [(choosingOrder_perm a total ws c).mem_iff]; simp

theorem choosingOrder_length (a total : Nat) (ws : List Nat) (c : Nat) :
    (choosingOrder a total ws c).length = ws.countP (fun w => decide (0 < w)) := by
  have hpayers : (List.range ws.length).countP (fun p => decide (0 < ws.getD p 0)) =
      ((List.range ws.length).map (fun p => ws.getD p 0)).countP (fun w => decide (0 < w)) := by
    rw [List.countP_map]; rfl
  rw [(choosingOrder_perm a total ws c).length_eq, ← List.countP_eq_length_filter, hpayers, map_getD_range_length]

/-! ### Whole parts and leftover units (R38 steps 1 to 3) -/

/-- The payers' whole parts. -/
def wholeParts (a : Nat) (ws : List Nat) : List Nat := ws.map (fun w => a * w / ws.sum)

/-- The payers that get one of the leftover units. -/
def luckyPayers (a : Nat) (ws : List Nat) (c : Nat) : List Nat :=
  (choosingOrder a ws.sum ws c).take (a - (wholeParts a ws).sum)

@[simp] theorem wholeParts_length (a : Nat) (ws : List Nat) : (wholeParts a ws).length = ws.length := by simp [wholeParts]

@[simp] theorem wholeParts_zero (ws : List Nat) : wholeParts 0 ws = ws.map (fun _ => 0) := by simp [wholeParts]

/-- One formula for every allocation: a payer's whole part, and a unit more for a lucky one. -/
theorem allocate_shares (a : Nat) (ws : List Nat) (c : Nat) :
    (allocate a ws c).shares =
      (wholeParts a ws).zipIdx.map (fun e => e.1 + if (luckyPayers a ws c).contains e.2 then 1 else 0) := by
  unfold allocate
  split
  · subst a
    refine List.ext_getElem (by simp) fun p _ _ => ?_
    simp [luckyPayers]
  · rfl

/-- Whole parts and remainders make up the amount, scaled by the total weight; here for the weights of a part of the payers. -/
theorem wholes_add_remainders (a total : Nat) (ws : List Nat) :
    total * (ws.map (fun w => a * w / total)).sum + (ws.map (fun w => a * w % total)).sum = a * ws.sum := by
  induction ws with
  | nil => simp
  | cons w ws ih =>
    have hw := Nat.div_add_mod (a * w) total
    simp only [List.map_cons, List.sum_cons, Nat.mul_add]
    omega

/-- Each remainder is below the total weight, and a payer of weight 0 has none. -/
theorem remainders_le (a : Nat) {total : Nat} (ht : 0 < total) (ws : List Nat) :
    (ws.map (fun w => a * w % total)).sum ≤ (total - 1) * ws.countP (fun w => decide (0 < w)) := by
  induction ws with
  | nil => simp
  | cons w ws ih =>
    have hw : a * w % total < total := Nat.mod_lt _ ht
    simp only [List.map_cons, List.sum_cons, List.countP_cons, Nat.mul_add]
    by_cases h : 0 < w
    · simp only [h, decide_true, if_true, Nat.mul_one]; omega
    · obtain rfl : w = 0 := by omega
      simpa using ih

theorem wholeParts_sum_le (a : Nat) {ws : List Nat} (h : 0 < ws.sum) : (wholeParts a ws).sum ≤ a := by
  have key := wholes_add_remainders a ws.sum ws
  refine Nat.le_of_mul_le_mul_left (c := ws.sum) ?_ h
  rw [wholeParts, Nat.mul_comm _ a]
  omega

/-- There are at least as many payers to choose from as units left over. -/
theorem leftover_le (a : Nat) {ws : List Nat} (h : 0 < ws.sum) :
    a - (wholeParts a ws).sum ≤ ws.countP (fun w => decide (0 < w)) := by
  have key : ws.sum * (wholeParts a ws).sum + (ws.map (fun w => a * w % ws.sum)).sum = a * ws.sum :=
    wholes_add_remainders a ws.sum ws
  have hrem := remainders_le a h ws
  have hle : (ws.sum - 1) * ws.countP (fun w => decide (0 < w)) ≤ ws.sum * ws.countP (fun w => decide (0 < w)) :=
    Nat.mul_le_mul_right _ (Nat.sub_le _ _)
  refine Nat.le_of_mul_le_mul_left (c := ws.sum) ?_ h
  rw [Nat.mul_sub, Nat.mul_comm ws.sum a]
  omega

theorem luckyPayers_length (a : Nat) {ws : List Nat} (c : Nat) (h : 0 < ws.sum) :
    (luckyPayers a ws c).length = a - (wholeParts a ws).sum := by
  rw [luckyPayers, List.length_take, choosingOrder_length, Nat.min_eq_left (leftover_le a h)]

theorem luckyPayers_nodup (a : Nat) (ws : List Nat) (c : Nat) : (luckyPayers a ws c).Nodup :=
  (choosingOrder_nodup a ws.sum ws c).sublist (List.take_sublist _ _)

theorem weight_pos_of_lucky {a : Nat} {ws : List Nat} {c p : Nat} (h : p ∈ luckyPayers a ws c) : p < ws.length ∧ 0 < ws.getD p 0 :=
  mem_choosingOrder.1 (List.mem_of_mem_take h)

/-- Each lucky payer is counted once among the payers. -/
theorem countP_lucky (a : Nat) (ws : List Nat) (c : Nat) :
    (List.range ws.length).countP (fun p => (luckyPayers a ws c).contains p) = (luckyPayers a ws c).length := by
  rw [List.countP_eq_length_filter]
  refine List.Perm.length_eq ((List.perm_ext_iff_of_nodup (List.nodup_range.filter _) (luckyPayers_nodup a ws c)).2 fun p => ?_)
  simp only [List.mem_filter, List.mem_range, List.contains_iff_mem, and_iff_right_iff_imp]
  exact fun h => (weight_pos_of_lucky h).1

/-! ### What an allocation gives (R38) -/

@[simp] theorem allocate_length (a : Nat) (ws : List Nat) (c : Nat) : (allocate a ws c).shares.length = ws.length := by
  simp [allocate_shares]

/-- The shares are the whole parts and the lucky payers' units. -/
theorem allocate_sum_eq (a : Nat) (ws : List Nat) (c : Nat) :
    (allocate a ws c).shares.sum = (wholeParts a ws).sum + (luckyPayers a ws c).length := by
  have hsnd : (wholeParts a ws).zipIdx.map (fun e => if (luckyPayers a ws c).contains e.2 then 1 else 0) =
      (List.range ws.length).map (fun p => if (luckyPayers a ws c).contains p then 1 else 0) := by
    rw [← wholeParts_length a ws, List.range_eq_range', ← List.zipIdx_map_snd 0 (wholeParts a ws), List.map_map]; rfl
  have hfst : (wholeParts a ws).zipIdx.map (fun e => e.1) = wholeParts a ws := List.zipIdx_map_fst 0 _
  rw [allocate_shares, sum_map_add_apart, hsnd, hfst, sum_indicator, countP_lucky]

/-- R38: the amount is divided exactly. -/
theorem allocate_sum (a : Nat) {ws : List Nat} (c : Nat) (h : 0 < ws.sum) : (allocate a ws c).shares.sum = a := by
  rw [allocate_sum_eq, luckyPayers_length a c h]
  exact Nat.add_sub_cancel' (wholeParts_sum_le a h)

/-- An amount of 0 is divided exactly whatever the weights, as where no payer took anything in a class. -/
theorem allocate_sum_of_zero {a : Nat} {ws : List Nat} (c : Nat) (h : ws.sum = 0 → a = 0) : (allocate a ws c).shares.sum = a := by
  rcases Nat.eq_zero_or_pos ws.sum with h0 | h0
  · rw [h h0, allocate, if_pos rfl]; exact sum_map_zero ws
  · exact allocate_sum a c h0

/-- R38: a payer gets its whole part, or that and a unit, and with weight 0 nothing. -/
theorem allocate_share {a : Nat} {ws : List Nat} {c p w share : Nat} (hw : ws[p]? = some w)
    (hs : (allocate a ws c).shares[p]? = some share) :
    (share = a * w / ws.sum ∨ share = a * w / ws.sum + 1) ∧ (w = 0 → share = 0) := by
  have hshare : share = a * w / ws.sum + if (luckyPayers a ws c).contains p then 1 else 0 := by
    simpa [allocate_shares, wholeParts, List.getElem?_zipIdx, hw, eq_comm] using hs
  by_cases hl : p ∈ luckyPayers a ws c
  · have hpos : 0 < w := by simpa [hw] using (weight_pos_of_lucky hl).2
    rw [if_pos (List.contains_iff_mem.2 hl)] at hshare
    exact ⟨.inr hshare, fun h0 => by omega⟩
  · rw [if_neg (mt List.contains_iff_mem.1 hl)] at hshare
    exact ⟨.inl hshare, fun h0 => by simp [hshare, h0]⟩

/-! ### The first group: the lines (R40) -/

/-- The amounts of the live lines. -/
def liveAmount (lines : List Line) : Nat := ((lines.filter Line.live).map Line.amount).sum

theorem liveAmount_append (ls ms : List Line) : liveAmount (ls ++ ms) = liveAmount ls + liveAmount ms := by
  rw [liveAmount, List.filter_append, List.map_append, List.sum_append]; rfl

theorem liveAmount_one (l : Line) : liveAmount [l] = if l.live then l.amount else 0 := by
  cases h : l.live <;> simp [liveAmount, h]

theorem classNet_append (ls ms : List Line) (k : Nat) : classNet (ls ++ ms) k = classNet ls k + classNet ms k := by
  rw [classNet, List.filter_append, List.map_append, List.sum_append]; rfl

theorem classNet_one (l : Line) (k : Nat) : classNet [l] k = if l.live ∧ l.taxClass.val = k then l.amount else 0 := by
  by_cases h : l.live ∧ l.taxClass.val = k
  · simp [classNet, h]
  · rw [if_neg h, classNet, List.filter_cons_of_neg (by simpa using h)]; rfl

theorem classNets_sum_one (l : Line) : ([0, 1, 2, 3].map (classNet [l])).sum = liveAmount [l] := by
  have hk : l.taxClass.val = 0 ∨ l.taxClass.val = 1 ∨ l.taxClass.val = 2 ∨ l.taxClass.val = 3 := by omega
  simp only [List.map_cons, List.map_nil, List.sum_cons, List.sum_nil, classNet_one, liveAmount_one]
  cases l.live with
  | false => simp
  | true => rcases hk with hk | hk | hk | hk <;> simp [hk]

/-- Every live line falls in one of the four classes. -/
theorem classNets_sum (lines : List Line) : ([0, 1, 2, 3].map (classNet lines)).sum = liveAmount lines := by
  induction lines with
  | nil => rfl
  | cons l lines ih =>
    have hclass : classNet (l :: lines) = fun k => classNet [l] k + classNet lines k := funext (classNet_append [l] lines)
    rw [hclass, sum_map_add_apart, classNets_sum_one, ih, ← liveAmount_append, List.singleton_append]

/-- A live line has a payer: the plan weighs each payer at least 1, and the line's share names one of them. -/
def HasPayer (plan : List Nat) (l : Line) : Prop := l.live = true → 0 < (shareWeights plan l.share).sum

@[simp] theorem shareWeights_length (plan : List Nat) (sh : Share) : (shareWeights plan sh).length = plan.length := by
  cases sh <;> simp [shareWeights]

theorem hasPayer_of_share {plan : List Nat} {l : Line} (hplan : plan ≠ []) (hw : ∀ w ∈ plan, 1 ≤ w)
    (hset : ∀ set, l.share = .payers set → ∃ p, p < plan.length ∧ set.getLsbD p = true) (hun : l.live = true → l.share ≠ .unassigned) :
    HasPayer plan l := by
  intro hl
  rw [List.sum_pos_iff_exists_pos_nat]
  cases hs : l.share with
  | all =>
    obtain ⟨w, hmem⟩ := List.exists_mem_of_ne_nil plan hplan
    exact ⟨w, hmem, hw w hmem⟩
  | payers set =>
    obtain ⟨p, hp, hbit⟩ := hset set hs
    refine ⟨plan[p], List.mem_map.2 ⟨(plan[p], p), ?_, by simp [hbit]⟩, hw _ (List.getElem_mem hp)⟩
    exact List.mk_mem_zipIdx_iff_getElem?.2 (List.getElem?_eq_getElem hp)
  | unassigned => exact absurd hs (hun hl)

/-- What the first group keeps: with the lines `done` allocated, the payers' nets add up to the lines' amounts, and their nets in
each class to the class net. -/
structure AllocatedTo (plan : List Nat) (done : List Line) (acc : LineShares) : Prop where
  nets_length : acc.nets.length = plan.length
  nets_sum : acc.nets.sum = liveAmount done
  inClass : ∀ k, k < 4 → ∃ ns, acc.classNets[k]? = some ns ∧ ns.length = plan.length ∧ ns.sum = classNet done k

/-- R40: a void line is passed over. -/
theorem allocateLine_of_void (plan : List Nat) (acc : LineShares) {l : Line} (h : l.live = false) : allocateLine plan acc l = acc := by
  have hv : l.void = true := by simpa [Line.live] using h
  simp [allocateLine, hv]

/-- R40: a live line's shares are added to the nets, and to those of its own class. -/
theorem allocateLine_of_live (plan : List Nat) (acc : LineShares) {l : Line} (h : l.live = true) :
    allocateLine plan acc l =
      { nets := addEach acc.nets (allocate l.amount (shareWeights plan l.share) acc.cursor).shares
        classNets := acc.classNets.modify l.taxClass.val
          (fun n => addEach n (allocate l.amount (shareWeights plan l.share) acc.cursor).shares)
        cursor := (allocate l.amount (shareWeights plan l.share) acc.cursor).cursor } := by
  have hv : l.void = false := by simpa [Line.live] using h
  simp [allocateLine, hv]

theorem allocateLine_allocatedTo {plan : List Nat} {done : List Line} {acc : LineShares} {l : Line} (hl : HasPayer plan l)
    (h : AllocatedTo plan done acc) : AllocatedTo plan (done ++ [l]) (allocateLine plan acc l) := by
  cases hlive : l.live with
  | false =>
    rw [allocateLine_of_void plan acc hlive]
    exact ⟨h.nets_length, by simp [liveAmount_append, liveAmount_one, hlive, h.nets_sum],
      fun k hk => by simpa [classNet_append, classNet_one, hlive] using h.inClass k hk⟩
  | true =>
    have hsum := allocate_sum l.amount acc.cursor (hl hlive)
    have hlen : plan.length = (allocate l.amount (shareWeights plan l.share) acc.cursor).shares.length := by simp
    rw [allocateLine_of_live plan acc hlive]
    refine ⟨?_, ?_, fun k hk => ?_⟩
    · rw [addEach_length (h.nets_length.trans hlen), h.nets_length]
    · rw [addEach_sum (h.nets_length.trans hlen), hsum, h.nets_sum, liveAmount_append, liveAmount_one, hlive, if_pos rfl]
    · obtain ⟨ns, hns, hnsLen, hnsSum⟩ := h.inClass k hk
      by_cases hc : l.taxClass.val = k
      · refine ⟨addEach ns (allocate l.amount (shareWeights plan l.share) acc.cursor).shares, by simp [hc, hns], ?_, ?_⟩
        · rw [addEach_length (hnsLen.trans hlen), hnsLen]
        · rw [addEach_sum (hnsLen.trans hlen), hsum, hnsSum, classNet_append, classNet_one, if_pos ⟨hlive, hc⟩]
      · exact ⟨ns, by simp [hc, hns], hnsLen, by simp [classNet_append, classNet_one, hc, hnsSum]⟩

theorem foldl_allocateLine_allocatedTo {plan : List Nat} {ls done : List Line} {acc : LineShares}
    (hls : ∀ l ∈ ls, HasPayer plan l) (h : AllocatedTo plan done acc) :
    AllocatedTo plan (done ++ ls) (ls.foldl (allocateLine plan) acc) := by
  induction ls generalizing done acc with
  | nil => simpa using h
  | cons l ls ih =>
    have hstep := allocateLine_allocatedTo (hls l List.mem_cons_self) h
    simpa using ih (fun m hm => hls m (List.mem_cons_of_mem _ hm)) hstep

theorem allocateLines_allocatedTo {plan : List Nat} {lines : List Line} (h : ∀ l ∈ lines, HasPayer plan l) :
    AllocatedTo plan lines (allocateLines plan lines) := by
  refine foldl_allocateLine_allocatedTo (done := []) h ⟨List.length_map .., sum_map_zero plan, fun k hk => ?_⟩
  refine ⟨plan.map (fun _ => 0), ?_, List.length_map .., sum_map_zero plan⟩
  obtain rfl | rfl | rfl | rfl : k = 0 ∨ k = 1 ∨ k = 2 ∨ k = 3 := by omega
  all_goals rfl

/-! ### The second group: the class taxes and the levy (R41, R42) -/

@[simp] theorem atRate_zero (rate : Nat) : atRate 0 rate = 0 := by simp [atRate]

/-- The class taxes are allocated one after another, each by what the payers took in its class: a column for each, which adds up to
the tax where a tax of a class that nobody took anything in is 0. -/
theorem foldl_allocateTax_columns {n : Nat} {taxes : List Nat} {s : LineShares} {ks : List Nat} (acc : TaxShares)
    (hks : ∀ k ∈ ks, (s.classNets.getD k []).length = n ∧ ((s.classNets.getD k []).sum = 0 → taxes.getD k 0 = 0)) :
    ∃ cols, (ks.foldl (allocateTax taxes s) acc).taxes = acc.taxes ++ cols ∧ (∀ col ∈ cols, col.length = n) ∧
      cols.map List.sum = ks.map (fun k => taxes.getD k 0) := by
  induction ks generalizing acc with
  | nil => exact ⟨[], by simp⟩
  | cons k ks ih =>
    obtain ⟨hlen, hzero⟩ := hks k List.mem_cons_self
    obtain ⟨cols, hcols, hlens, hsums⟩ := ih (allocateTax taxes s acc k) (fun j hj => hks j (List.mem_cons_of_mem _ hj))
    refine ⟨(allocate (taxes.getD k 0) (s.classNets.getD k []) acc.cursor).shares :: cols, ?_, ?_, ?_⟩
    · rw [List.foldl_cons, hcols]; simp [allocateTax]
    · exact List.forall_mem_cons.2 ⟨by rw [allocate_length, hlen], hlens⟩
    · rw [List.map_cons, List.map_cons, hsums, allocate_sum_of_zero _ hzero]

/-- R41: the columns of the second group add up to the class taxes. -/
theorem allocateTaxes_columns {plan rates : List Nat} {lines : List Line} {acc : LineShares} (h : AllocatedTo plan lines acc)
    {taxes : List Nat} (ht : taxes = [0, 1, 2, 3].map (fun k => atRate (classNet lines k) (rates.getD k 0))) :
    (∀ col ∈ (allocateTaxes taxes acc).taxes, col.length = plan.length) ∧ (allocateTaxes taxes acc).taxes.map List.sum = taxes := by
  have hks : ∀ k ∈ [0, 1, 2, 3], (acc.classNets.getD k []).length = plan.length ∧
      ((acc.classNets.getD k []).sum = 0 → taxes.getD k 0 = 0) := by
    intro k hmem
    have hcases : k = 0 ∨ k = 1 ∨ k = 2 ∨ k = 3 := by simpa only [List.mem_cons, List.not_mem_nil, or_false] using hmem
    have hk : k < 4 := by omega
    obtain ⟨ns, hns, hlen, hsum⟩ := h.inClass k hk
    have hget : acc.classNets.getD k [] = ns := by simp [hns]
    have htax : taxes.getD k 0 = atRate (classNet lines k) (rates.getD k 0) := by
      subst ht
      rcases hcases with rfl | rfl | rfl | rfl <;> rfl
    rw [hget, htax, ← hsum]
    exact ⟨hlen, fun h0 => by rw [h0, atRate_zero]⟩
  obtain ⟨cols, hcols, hlens, hsums⟩ := foldl_allocateTax_columns { taxes := [], cursor := acc.cursor } hks
  have he : (allocateTaxes taxes acc).taxes = cols := hcols
  rw [he]
  exact ⟨hlens, hsums.trans (by subst ht; rfl)⟩

/-! ### The due table (R34, R43) -/

theorem incomplete_iff {lines : List Line} : incomplete lines = true ↔ ∃ l ∈ lines, l.void = false ∧ l.share = .unassigned := by
  simp [incomplete, Line.live]

theorem dueTable_complete (lines : List Line) (plan rates : List Nat) (levy : Nat) :
    (dueTable lines plan rates levy).complete = !incomplete lines := rfl

theorem dueTable_total (lines : List Line) (plan rates : List Nat) (levy : Nat) :
    (dueTable lines plan rates levy).total = (dueTable lines plan rates levy).net +
      (dueTable lines plan rates levy).classTaxes.sum + (dueTable lines plan rates levy).levy := rfl

theorem dueTable_levy (lines : List Line) (plan rates : List Nat) (levy : Nat) :
    (dueTable lines plan rates levy).levy = atRate (dueTable lines plan rates levy).net levy := rfl

theorem dueTable_net (lines : List Line) (plan rates : List Nat) (levy : Nat) :
    (dueTable lines plan rates levy).net = liveAmount lines := classNets_sum lines

theorem dueTable_rows_length (lines : List Line) (plan rates : List Nat) (levy : Nat) :
    (dueTable lines plan rates levy).rows.length = plan.length := by
  unfold dueTable
  cases incomplete lines <;> simp

/-- R34: an INCOMPLETE table has a row of 0 for each payer. -/
theorem dueTable_rows_of_incomplete {lines : List Line} (plan rates : List Nat) (levy : Nat) (h : incomplete lines = true) :
    (dueTable lines plan rates levy).rows = plan.map (fun _ => {}) := by
  simp [dueTable, h]

/-- The rows of `n` payers, from the columns of their nets, of their taxes in each class, and of their levies. -/
def rowsOf (n : Nat) (nets : List Nat) (taxes : List (List Nat)) (levies : List Nat) : List PayerRow :=
  (List.range n).map (fun p => payerRow (nets.getD p 0) (taxes.map (fun c => c.getD p 0)) (levies.getD p 0))

/-- R40 to R43: a COMPLETE table's rows come from columns of a figure a payer, each of which adds up to the check's figure. -/
theorem dueTable_columns {lines : List Line} {plan : List Nat} (rates : List Nat) (levy : Nat) (hc : incomplete lines = false)
    (hp : ∀ l ∈ lines, HasPayer plan l) {d : DueTable} (hd : d = dueTable lines plan rates levy) :
    ∃ nets taxes levies, d.rows = rowsOf plan.length nets taxes levies ∧
      (nets.length = plan.length ∧ nets.sum = d.net) ∧
      ((∀ col ∈ taxes, col.length = plan.length) ∧ taxes.map List.sum = d.classTaxes) ∧
      (levies.length = plan.length ∧ levies.sum = d.levy) := by
  subst hd
  have hs := allocateLines_allocatedTo hp
  have hnet := hs.nets_sum.trans (dueTable_net lines plan rates levy).symm
  refine ⟨_, _, _, by rw [dueTable, hc]; rfl, ⟨hs.nets_length, hnet⟩, allocateTaxes_columns (rates := rates) hs rfl, ?_, ?_⟩
  · rw [allocate_length, hs.nets_length]
  · refine allocate_sum_of_zero _ fun h0 => ?_
    exact (dueTable_levy lines plan rates levy).trans (by rw [← hnet, h0, atRate_zero])

/-! ### Sums over the rows -/

section
variable {n : Nat} {nets levies : List Nat} {taxes : List (List Nat)}

theorem rowsOf_net_sum (h : nets.length = n) : ((rowsOf n nets taxes levies).map PayerRow.net).sum = nets.sum := by
  rw [← sum_getD_range h, rowsOf, List.map_map]; rfl

theorem rowsOf_levy_sum (h : levies.length = n) : ((rowsOf n nets taxes levies).map PayerRow.levy).sum = levies.sum := by
  rw [← sum_getD_range h, rowsOf, List.map_map]; rfl

theorem rowsOf_tax_sum (h : ∀ col ∈ taxes, col.length = n) (k : Nat) :
    ((rowsOf n nets taxes levies).map (fun row => row.taxes.getD k 0)).sum = (taxes.map List.sum).getD k 0 := by
  rw [rowsOf, List.map_map]
  cases hk : taxes[k]? with
  | none =>
    have hrow : ∀ p, (taxes.map (fun c => c.getD p 0)).getD k 0 = 0 := fun p => by simp [hk]
    have hsum : (taxes.map List.sum).getD k 0 = 0 := by simp [hk]
    rw [hsum]
    exact (congrArg List.sum (List.map_congr_left fun p _ => hrow p)).trans (sum_map_zero _)
  | some col =>
    have hrow : ∀ p, (taxes.map (fun c => c.getD p 0)).getD k 0 = col.getD p 0 := fun p => by simp [hk]
    have hsum : (taxes.map List.sum).getD k 0 = col.sum := by simp [hk]
    rw [hsum]
    exact (congrArg List.sum (List.map_congr_left fun p _ => hrow p)).trans (sum_getD_range (h col (List.mem_of_getElem? hk)))

/-- The payers' taxes, summed payer by payer or class by class. -/
theorem sum_taxes_by_payer (h : ∀ col ∈ taxes, col.length = n) :
    ((List.range n).map (fun p => (taxes.map (fun c => c.getD p 0)).sum)).sum = (taxes.map List.sum).sum := by
  induction taxes with
  | nil => exact sum_map_zero (List.range n)
  | cons col taxes ih =>
    simp only [List.map_cons, List.sum_cons]
    rw [sum_map_add_apart, sum_getD_range (h col List.mem_cons_self), ih (fun c hc => h c (List.mem_cons_of_mem _ hc))]

theorem rowsOf_due_sum (hn : nets.length = n) (ht : ∀ col ∈ taxes, col.length = n) (hl : levies.length = n) :
    ((rowsOf n nets taxes levies).map PayerRow.due).sum = nets.sum + (taxes.map List.sum).sum + levies.sum := by
  have hdue : (rowsOf n nets taxes levies).map PayerRow.due =
      (List.range n).map (fun p => nets.getD p 0 + (taxes.map (fun c => c.getD p 0)).sum + levies.getD p 0) := by
    rw [rowsOf, List.map_map]; rfl
  rw [hdue, sum_map_add_apart, sum_map_add_apart, sum_getD_range hn, sum_taxes_by_payer ht, sum_getD_range hl]

/-- R43: a fresh row has nothing applied and all of its due remaining, and is PAID where that is nothing. -/
theorem rowsOf_fresh {row : PayerRow} (h : row ∈ rowsOf n nets taxes levies) :
    row.applied = 0 ∧ row.remaining = row.due ∧ row.paid = decide (row.due = 0) := by
  obtain ⟨p, _, rfl⟩ := List.mem_map.1 h
  exact ⟨rfl, rfl, rfl⟩

end

/-- R34, R37, R40 to R43: the rows of a COMPLETE table add up to the check's figures. -/
theorem dueTable_adds_up {lines : List Line} {plan : List Nat} (rates : List Nat) (levy : Nat) (hc : incomplete lines = false)
    (hp : ∀ l ∈ lines, HasPayer plan l) {d : DueTable} (hd : d = dueTable lines plan rates levy) :
    (d.rows.map PayerRow.due).sum = d.total ∧ (d.rows.map PayerRow.net).sum = d.net ∧ (d.rows.map PayerRow.levy).sum = d.levy ∧
      (∀ k, k < 4 → (d.rows.map (fun row => row.taxes.getD k 0)).sum = d.classTaxes.getD k 0) ∧
      ∀ row ∈ d.rows, row.applied = 0 ∧ row.remaining = row.due ∧ row.paid = decide (row.due = 0) := by
  obtain ⟨nets, taxes, levies, hrows, ⟨hn, hnet⟩, ⟨ht, htax⟩, hl, hlevy⟩ := dueTable_columns rates levy hc hp hd
  have htotal : d.total = d.net + d.classTaxes.sum + d.levy := hd ▸ dueTable_total lines plan rates levy
  rw [hrows]
  refine ⟨?_, (rowsOf_net_sum hn).trans hnet, (rowsOf_levy_sum hl).trans hlevy, fun k _ => ?_, fun row hrow => rowsOf_fresh hrow⟩
  · rw [rowsOf_due_sum hn ht hl, htotal, hnet, htax, hlevy]
  · rw [rowsOf_tax_sum ht, htax]

/-- Settles O30: an allocation is the whole parts and a unit for each lucky payer, and a due table's columns are allocations of its
figures. -/
theorem duesAddUpToTheTotal : Obligations.DuesAddUpToTheTotal := by
  refine ⟨fun a ws cur hpos => ⟨allocate_sum a cur hpos, allocate_length a ws cur, fun p w share hw hs => allocate_share hw hs⟩, ?_⟩
  intro lines plan rates levy d hd hplan hw hset
  refine ⟨hd ▸ dueTable_rows_length lines plan rates levy, fun hun => ?_, fun hall => ?_⟩
  · have hc := incomplete_iff.2 hun
    subst hd
    rw [dueTable_complete, hc, dueTable_rows_of_incomplete plan rates levy hc]
    refine ⟨rfl, fun row hrow => ?_⟩
    obtain ⟨_, _, rfl⟩ := List.mem_map.1 hrow
    rfl
  · have hc : incomplete lines = false :=
      Bool.eq_false_iff.2 fun h => by
        obtain ⟨l, hl, hv, hs⟩ := incomplete_iff.1 h
        exact hall l hl hv hs
    have hp : ∀ l ∈ lines, HasPayer plan l := fun l hl hlive => by
      have hv : l.void = false := by simpa [Line.live] using hlive
      exact hasPayer_of_share hplan hw (hset l hl hv) (fun _ => hall l hl hv) hlive
    obtain ⟨hdue, hnet, hlevy, htax, hfresh⟩ := dueTable_adds_up rates levy hc hp hd
    have hcomplete : d.complete = true := by rw [hd, dueTable_complete, hc]; rfl
    exact ⟨hcomplete, hdue, hnet, hlevy, htax, hfresh, hd ▸ dueTable_net lines plan rates levy⟩

end Sys2Proof.Machine
end

section
/-! Tenders (R45 to R62): the cash rounding, what a close changes, and what a tender that has passed its tests leaves. -/

namespace Sys2Proof.Machine

/-! ### Cash rounding (R45, R46, R53) -/

theorem cashRounded_of_down {remaining increment : Nat} (h : 2 * (remaining % increment) < increment) :
    cashRounded remaining increment = remaining - remaining % increment := if_pos h

theorem cashRounded_of_up {remaining increment : Nat} (h : increment ≤ 2 * (remaining % increment)) :
    cashRounded remaining increment = remaining - remaining % increment + increment := if_neg (Nat.not_lt.2 h)

/-- R45: rounding takes off less than half the increment, or adds half of it at most. -/
theorem cashRounded_bounds (remaining : Nat) {increment : Nat} (h : 1 ≤ increment) :
    remaining ≤ cashRounded remaining increment + (increment - 1) / 2 ∧
      cashRounded remaining increment ≤ remaining + increment / 2 := by
  have hle : remaining % increment ≤ remaining := Nat.mod_le ..
  have hlt : remaining % increment < increment := Nat.mod_lt _ h
  rcases Nat.lt_or_ge (2 * (remaining % increment)) increment with hr | hr
  · rw [cashRounded_of_down hr]; omega
  · rw [cashRounded_of_up hr]; omega

/-- R46: the adjustment of a CASH tender that completes its payer. -/
def cashAdjustment (amount remaining increment : Nat) : Int :=
  (amount : Int) - (amount - cashRounded remaining increment : Nat) - remaining

theorem cashPayment_of_complete {amount remaining increment : Nat} (h : min remaining (cashRounded remaining increment) ≤ amount) :
    cashPayment amount remaining increment =
      { applied := remaining, change := amount - cashRounded remaining increment,
        adjustment := cashAdjustment amount remaining increment, forfeit := 0 } := if_pos h

theorem cashPayment_of_partial {amount remaining increment : Nat} (h : amount < min remaining (cashRounded remaining increment)) :
    cashPayment amount remaining increment = { applied := amount, change := 0, adjustment := 0, forfeit := 0 } :=
  if_neg (Nat.not_le.2 h)

/-- R46: an amount of the rounded value or more writes off what the rounding did; one below it, which meets the remaining, writes off
what it gives beyond that. -/
theorem cashAdjustment_bounds {amount remaining increment : Nat} (hinc : 1 ≤ increment)
    (h : min remaining (cashRounded remaining increment) ≤ amount) :
    -(((increment - 1) / 2 : Nat) : Int) ≤ cashAdjustment amount remaining increment ∧
      cashAdjustment amount remaining increment ≤ ((increment / 2 : Nat) : Int) := by
  obtain ⟨hlow, hhigh⟩ := cashRounded_bounds remaining hinc
  unfold cashAdjustment
  rcases Nat.lt_or_ge amount (cashRounded remaining increment) with ha | ha <;> omega

/-- R53: no CASH tender applies more than remains. -/
theorem cashPayment_applied_le (amount remaining increment : Nat) :
    (cashPayment amount remaining increment).applied ≤ remaining := by
  rcases Nat.lt_or_ge amount (min remaining (cashRounded remaining increment)) with h | h
  · rw [cashPayment_of_partial h]; exact Nat.le_of_lt (Nat.lt_of_lt_of_le h (Nat.min_le_left ..))
  · exact Nat.le_of_eq (congrArg Payment.applied (cashPayment_of_complete h))

/-! ### The close of a check (R60 to R62) -/

/-- Of the whole state only ISU's tables and the list of hand-overs changed. -/
def IsuAndHandoversOnly (s t : State) : Prop := t = { s with isu := t.isu, handovers := t.handovers }

theorem IsuAndHandoversOnly.trans {s t u : State} (h : IsuAndHandoversOnly s t) (k : IsuAndHandoversOnly t u) :
    IsuAndHandoversOnly s u := by
  unfold IsuAndHandoversOnly at *
  rw [k, h]

theorem IsuAndHandoversOnly.check {s t : State} (h : IsuAndHandoversOnly s t) (g : Handle) : t.check g = s.check g := by
  rw [h]; rfl

/-- R61: a commit changes ISU's tables, and the hand-overs with its notices and what is carried out before it (R1). -/
theorem commitLine_only (s : State) (l : Line) : IsuAndHandoversOnly s (commitLine s l) := by
  unfold commitLine
  split
  · obtain ⟨isu, more, hask⟩ := deliverToIsu_frame .cks s
    have hasks : IsuAndHandoversOnly s (storeAsks s) := by rw [storeAsks, hask]; rfl
    refine hasks.trans ?_
    rw [commitAsk, State.changeStock_eq]
    rfl
  · rfl

theorem foldl_commitLine_only (ls : List Line) (s : State) : IsuAndHandoversOnly s (ls.foldl commitLine s) := by
  induction ls generalizing s with
  | nil => rfl
  | cons l ls ih => exact (commitLine_only s l).trans (ih _)

theorem handWaiting_only (h : Handle) (c : Check) (s : State) : IsuAndHandoversOnly s (handWaiting h c s) := by
  unfold handWaiting
  split
  · dsimp only
    split <;> rfl
  · rfl

/-- R60 to R62: the router is told of the close after every other hand-over it makes. -/
theorem closeCheck_told (h : Handle) (c : Check) (s : State) :
    (closeCheck h c s).handovers.getLast? = some (.checkCloseTold h) := List.getLast?_concat

theorem State.unhold_frame (s : State) (holder : Option Nat) (h : Handle) :
    s.unhold holder h = { s with cks := { s.cks with tills := (s.unhold holder h).cks.tills } } := by
  cases holder <;> rfl

theorem State.check_unhold (s : State) (holder : Option Nat) (h g : Handle) : (s.unhold holder h).check g = s.check g := by
  rw [State.unhold_frame]; rfl

theorem closeAtStore_frame (h : Handle) (c : Check) (s : State) :
    closeAtStore h c s = { s with cks := (closeAtStore h c s).cks } := by
  rw [closeAtStore, State.unhold_frame]; rfl

theorem closeAtStore_closedList (h : Handle) (c : Check) (s : State) :
    (closeAtStore h c s).cks.closedList = s.cks.closedList ++ [h] := by
  rw [closeAtStore, State.unhold_frame]; rfl

theorem check_closeAtStore_same (h : Handle) (c : Check) (s : State) :
    (closeAtStore h c s).check h = some { c with state := .closed, holder := none, closeTime := some s.exu.dayClock } :=
  State.check_setCheck_same ..

theorem check_closeAtStore_other {s : State} {h g : Handle} {c0 : Check} (c : Check) (hc : s.check h = some c0) (hg : g ≠ h) :
    (closeAtStore h c s).check g = s.check g := by
  have hun : (s.unhold c.holder h).check h = some c0 := (State.check_unhold ..).trans hc
  exact (State.check_setCheck_other _ hun hg).trans (State.check_unhold ..)

/-- R60 to R62: after its own effects at the Check Store, a close reaches no block but ISU. -/
theorem closeCheck_only (h : Handle) (c : Check) (s : State) : IsuAndHandoversOnly (closeAtStore h c s) (closeCheck h c s) :=
  ((foldl_commitLine_only c.lines _).trans (handWaiting_only h c _)).trans rfl

/-- R60 to R62: the whole frame of a close. -/
theorem closeCheck_frame (h : Handle) (c : Check) (s : State) :
    closeCheck h c s =
      { s with cks := (closeAtStore h c s).cks, isu := (closeCheck h c s).isu, handovers := (closeCheck h c s).handovers } := by
  have hstore := closeAtStore_frame h c s
  have honly := closeCheck_only h c s
  unfold IsuAndHandoversOnly at honly
  rw [hstore] at honly
  exact honly

/-- R60: the check is CLOSED, in no till's hands, with its close time. -/
theorem check_closeCheck_same (h : Handle) (c : Check) (s : State) :
    (closeCheck h c s).check h = some { c with state := .closed, holder := none, closeTime := some s.exu.dayClock } :=
  ((closeCheck_only h c s).check h).trans (check_closeAtStore_same h c s)

theorem check_closeCheck_other {s : State} {h g : Handle} {c0 : Check} (c : Check) (hc : s.check h = some c0) (hg : g ≠ h) :
    (closeCheck h c s).check g = s.check g :=
  ((closeCheck_only h c s).check g).trans (check_closeAtStore_other c hc hg)

theorem closeCheck_closedList (h : Handle) (c : Check) (s : State) :
    (closeCheck h c s).cks.closedList = s.cks.closedList ++ [h] := by
  rw [closeCheck_frame]; exact closeAtStore_closedList h c s

/-! ### A tender taken (R51, R52) -/

theorem modify_of_getElem? {α : Type} {l : List α} {p : Nat} {a : α} (h : l[p]? = some a) (f : α → α) :
    l.modify p f = l.set p (f a) := by
  refine List.ext_getElem? fun i => ?_
  obtain ⟨hp, _⟩ := List.getElem?_eq_some_iff.1 h
  rw [List.getElem?_modify, List.getElem?_set]
  by_cases hi : p = i
  · subst hi; simp only [h, hp, if_true]; rfl
  · simp only [hi, if_false]; exact Option.map_id_apply

/-- R52 step 3: the rows after a tender of a payer whose row stands in the table. -/
theorem tendered_due {c : Check} {p : Nat} {row : PayerRow} (hrow : c.due.rows[p]? = some row) (kind : TenderKind) (amount : Nat)
    (ref : Word) {y : Payment} (hy : y.applied ≤ row.remaining) :
    (tendered c (tenderRecord p kind amount ref y)).due = { c.due with
      rows := c.due.rows.set p { row with
        applied := row.applied + y.applied, remaining := row.remaining - y.applied,
        paid := decide (row.remaining = y.applied) } } := by
  have hpaid : (row.remaining - y.applied = 0) = (row.remaining = y.applied) := by
    rw [eq_iff_iff]; omega
  simp only [tendered, Check.mapRow, tenderRecord, PayerRow.pay, modify_of_getElem? hrow, hpaid]

/-- R52: a tender that has passed its tests is taken, whatever its kind, where it applies no more than remains. -/
theorem takeTender_taken {s : State} {h : Handle} {c : Check} {p : Nat} {row : PayerRow} (hc : s.check h = some c)
    (hrow : c.due.rows[p]? = some row) (kind : TenderKind) (amount : Nat) (ref : Word) {y : Payment}
    (hy : y.applied ≤ row.remaining) (cmd : Instr) :
    ∃ t, takeTender h c (tenderRecord p kind amount ref y) row.remaining (s.taken cmd) = .next t ∧
      TenderTaken s t h c p row kind amount ref y cmd := by
  let c1 := tendered c (tenderRecord p kind amount ref y)
  have hdue := tendered_due hrow kind amount ref hy
  have hset : ((s.taken cmd).setCheck h c1).check h = some c1 := State.check_setCheck_same ..
  have hother : ∀ g, g ≠ h → ((s.taken cmd).setCheck h c1).check g = s.check g :=
    fun g hg => State.check_setCheck_other (s := s.taken cmd) c1 hc hg
  by_cases hall : c1.allPaid = true
  · have hframe := closeCheck_frame h c1 ((s.taken cmd).setCheck h c1)
    refine ⟨_, if_pos hall, { c1 with state := .closed, holder := none, closeTime := some s.exu.dayClock }, ?_, rfl, hdue,
      rfl, rfl, fun g hg => ?_, Eq.mpr (if_pos hall) ⟨rfl, rfl, rfl, ?_, closeCheck_told .., ?_, ?_⟩⟩
    · exact check_closeCheck_same h c1 _
    · exact (check_closeCheck_other c1 hset hg).trans (hother g hg)
    · exact closeCheck_closedList h c1 _
    · rw [DoneWith, State.answerWith, hframe]; rfl
    · rw [State.answerWith, hframe]; rfl
  · exact ⟨_, if_neg hall, c1, hset, rfl, hdue, rfl, rfl, hother, Eq.mpr (if_neg hall) ⟨rfl, rfl, rfl, rfl, rfl⟩⟩

theorem exec_tender (r : Requester) (w pw kw aw ref : Word) (s : State) :
    exec (.tender r w pw kw aw ref) s = execTender r w pw kw aw ref s := rfl

/-- R51: a TENDER that meets none of the refusals is taken, with what the rule of its kind says. -/
theorem exec_tender_of_tests {s : State} {r : Requester} {w pw kw aw ref : Word} {h : Handle} {c : Check} {row : PayerRow}
    {kind : TenderKind} (hheld : HeldBy s r w h c) (hcomplete : c.due.complete = true) (hp : pw.toNat ≤ 7)
    (hrow : c.due.rows[pw.toNat]? = some row) (hroom : c.tenders.length < 16) (howing : row.remaining ≠ 0)
    (hlow : 1 ≤ aw.toNat) (hhigh : aw.toNat ≤ 99999999) (hkind : tenderKindOf kw = some kind)
    (hcard : kind = .card → aw.toNat ≤ row.remaining) :
    exec (.tender r w pw kw aw ref) s =
      takeTender h c (tenderRecord pw.toNat kind aw.toNat ref (payment kind aw.toNat row.remaining c.increment)) row.remaining
        (s.taken (.tender r w pw kw aw ref)) := by
  obtain ⟨hw, hlive, hended, hholder⟩ := hheld
  have hover : ¬ (kind = .card ∧ row.remaining < aw.toNat) := fun ⟨hk, hlt⟩ => Nat.not_lt.2 (hcard hk) hlt
  have hpayer : within 0 7 pw = some pw.toNat := if_pos ⟨Nat.zero_le _, hp⟩
  have hamount : within 1 99999999 aw = some aw.toNat := if_pos ⟨hlow, hhigh⟩
  rw [exec_tender, execTender]
  simp only [hpayer, hkind, hamount]
  rw [withHeldCheck_held (s := s.taken _) hw hlive hended hholder]
  simp only [hcomplete, Bool.not_true, Bool.false_eq_true, if_false, hrow, Nat.not_le.2 hroom, howing, hover]

/-- Settles O26: by the two cases of the cash rule, each taken as R52 says. -/
theorem cashTendersRoundToTheIncrement : Obligations.CashTendersRoundToTheIncrement := by
  intro s r w pw aw ref h c row rc hheld hcomplete hp hrow hroom howing hlow hhigh hinc hdown hup
  have hrc : rc = cashRounded row.remaining c.increment := by
    rcases Nat.lt_or_ge (2 * (row.remaining % c.increment)) c.increment with hr | hr
    · rw [hdown hr, cashRounded_of_down hr]
    · rw [hup hr, cashRounded_of_up hr]
  subst hrc
  have ⟨_, hlive, _, _⟩ := hheld
  obtain ⟨t, hnext, htaken⟩ := takeTender_taken hlive hrow .cash aw.toNat ref
    (cashPayment_applied_le aw.toNat row.remaining c.increment) (.tender r w pw 0 aw ref)
  have hexec : exec (.tender r w pw 0 aw ref) s = .next t :=
    (exec_tender_of_tests hheld hcomplete hp hrow hroom howing hlow hhigh rfl (by simp)).trans hnext
  refine ⟨fun hfull => ?_, fun hpart => ?_⟩
  · obtain ⟨hlo, hhi⟩ := cashAdjustment_bounds hinc hfull
    rw [cashPayment_of_complete hfull] at htaken
    exact ⟨t, _, hexec, rfl, hlo, hhi, htaken⟩
  · rw [cashPayment_of_partial hpart] at htaken
    exact ⟨t, hexec, htaken⟩

end Sys2Proof.Machine
end
